-- ==== Sys2Proof/Word.lean ====
section
/-! DEFINITION. The word types of the BX3208 and their plainest arithmetic: a native register word is 32 bits (R363), a byte is 8 bits, a native address is a number below 2^22 (R6). -/

namespace Sys2Proof

/-- A native register word (R363). -/
abbrev Word := BitVec 32

/-- A byte. -/
abbrev Byte := BitVec 8

/-- A line lane, 0 to 7 (R4). -/
abbrev Lane := Fin 8

/-- A host lane, 0 to 15 (R4). -/
abbrev Host16 := Fin 16

/-- An engine, ENG0 to ENG4 (chapter 1, Control without a processor). -/
abbrev Eng := Fin 5

/-- A bit as a number. -/
abbrev bit (b : Bool) : Nat := if b then 1 else 0

end Sys2Proof
end

