-- ==== Sys2Proof/Syntax.lean ====
section
/-! DEFINITION. The commands of the BX3208: one constructor per row of spec/opcode_table.json, with the operands that come from outside the device (a pin, a port, a sample, the end of a time that the spec gives). -/

namespace Sys2Proof

/-- The ports at which an access enters a page (R27, R362, R370). -/
inductive Port where
  | twoWire | spi | sheet
  deriving DecidableEq, Repr

/-- One sample of a capture source (R413, R414): its RAW value and whether the tentative decision differs from the final one. -/
structure CapSample where
  v : Int
  differs : Bool
  deriving DecidableEq, Repr

/-- The settings that one CMIS data path named by Apply asks for (R369): its line lane's map and LFM_MODE as its Application names them, the HRX_MODE and HTX_MODE of its host lanes, and whether the host controls its signal integrity explicitly, by the controls of page 10h (R145). -/
structure DataPath where
  lane : Lane
  map : Word
  lfm : Word
  hrx : List (Host16 × Word)
  htx : List (Host16 × Word)
  explicit : Bool
  deriving DecidableEq, Repr

/-- What the outside shows the device during a bring-up (R451): the strap, the external rails out of range (bit 0 VCORE, 1 VANA, 2 VHS, 3 VIO), the domains without power-good by their numbers, the flash's answer, and what each self-test found (R221, R222). -/
structure BootEnv where
  strap : Bool := false
  railBad : BitVec 4 := 0
  noGood : List (Fin 32) := []
  jedec : Option (BitVec 24) := some 0
  /-- Every read of the image completes (R431 check 1), per slot and for the customer Ream. -/
  readOk : Vector Bool 3 := Vector.replicate 3 true
  /-- The sections load without an uncorrectable error (R431 check 9), likewise. -/
  loadOk : Vector Bool 3 := Vector.replicate 3 true
  engFail : BitVec 5 := 0
  hostFail : BitVec 16 := 0
  hkFail : BitVec 2 := 0
  /-- Memory blocks that the march repaired from spares, and that are beyond repair. -/
  repaired : List (Fin 176) := []
  beyond : List (Fin 176) := []
  /-- What the checkers of memory blocks answered to the patterns of the start-up test, where one was run and its answers are not those of R300: 0 no error, 1 corrected, 2 uncorrectable (R316). -/
  checker : List (Fin 176 × List (Fin 3)) := []
  /-- Milliseconds from release to management ready (R452). -/
  ms : Nat := 0
  deriving DecidableEq, Repr

/-- One instant of a shadow phase: the raw sample of the out slice, and the raw samples of the slices that fill the positions before, at and after its target (R212, R213). -/
structure Shadow where
  y : Int
  before : Int
  mid : Int
  after : Int
  deriving DecidableEq, Repr

/-- How an in-service test ended: a lane test with the slices that failed step 2 of R219, the figures of step 4 against S64 and, where S64 failed, against the slice that takes its place, and the symbol errors of step 5; or a macro test (R220, R224, R225). -/
inductive TestOutcome where
  | lane (failed : List Nat) (rqfs : List Nat) (again : List Nat) (errors : Nat)
  | memPass
  | memRepaired
  | memFail
  deriving DecidableEq, Repr

/-- The commands, one for each row of spec/opcode_table.json, in its order. -/
inductive Instr where
  /-- I2C_WRITE_TRANSACTION (R363): A two-wire write transaction is taken whole; each native word is written when its highest byte arrives, and a word left incomplete is discarded with cause 8. -/
  | i2cWriteTransaction (modselN : Bool) (addr : BitVec 7) (data : List Byte)
  /-- I2C_READ_TRANSACTION (R363): A two-wire read transaction snapshots each word at its first byte, with the word's read side effects, and stretches SCL or ends with the T bit while a word is fetched. -/
  | i2cReadTransaction (modselN : Bool) (addr : BitVec 7) (setOff : Option Byte) (count : Nat) (ready : Nat)
  /-- SETDASA (R362): The SETDASA CCC naming static address 0x50 switches the two-wire port to an I3C SDR target at the given dynamic address. -/
  | setdasa (stat : BitVec 7) (dyn : BitVec 7)
  /-- RSTDAA (R362): The RSTDAA CCC returns the port to I2C mode at address 0x50. -/
  | rstdaa
  /-- SETNEWDA (R362): The SETNEWDA CCC changes the I3C dynamic address. -/
  | setnewda (addr : BitVec 7) (dyn : BitVec 7)
  /-- GETPID (R362): The GETPID CCC returns the provisioned ID. -/
  | getpid (addr : BitVec 7)
  /-- GETBCR (R362): The GETBCR CCC returns the bus characteristics register. -/
  | getbcr (addr : BitVec 7)
  /-- GETDCR (R362): The GETDCR CCC returns the device characteristics register. -/
  | getdcr (addr : BitVec 7)
  /-- GETSTATUS (R362): The GETSTATUS CCC returns the target status. -/
  | getstatus (addr : BitVec 7)
  /-- ENEC (R362): The ENEC CCC enables target events. -/
  | enec (events : Byte)
  /-- DISEC (R362): The DISEC CCC disables target events. -/
  | disec (events : Byte)
  /-- SPI_WRITE (R370): An SPI write command writes whole words at a native address that advances by 4, each taking force as it completes. -/
  | spiWrite (addr : BitVec 24) (words : List Word)
  /-- SPI_READ (R370): An SPI read command returns words, each preceded by wait bytes and the start byte 0x5A. -/
  | spiRead (addr : BitVec 24) (waits : List Nat)
  /-- MODSEL_N_RISE (R371): MODSEL_N rising during a transaction releases SDA within 2 us and discards any incomplete word. -/
  | modselNRise (partialData : Option (List Byte))
  /-- REGISTER_WRITE (R10): A write to a register without behaviour of its own takes force by its access code, in arrival order at the page port. -/
  | registerWrite (port : Port) (addr : BitVec 22) (value : Word)
  /-- CMIS_APPLY_DPINIT (R369): CMIS ApplyDPInit stages the named data paths' settings, groups, parks and presses them and reports configuration status. -/
  | cmisApplyDpinit (paths : List DataPath)
  /-- CMIS_APPLY_IMMEDIATE (R369): CMIS ApplyImmediate writes signal-integrity RWE registers and strobes an epoch, or acts as ApplyDPInit otherwise. -/
  | cmisApplyImmediate (paths : List DataPath)
  /-- CMIS_SOFTWARE_RESET (R455): The CMIS SoftwareReset control resets the device from bring-up step 2. -/
  | cmisSoftwareReset (env : BootEnv)
  /-- MODULE_PWR_UP (R454): When the host allows power-up, the device presses the default maps, powers the D_HOST groups, enables lasers and reaches ModuleReady. -/
  | modulePwrUp
  /-- PARK (R374): A write of PG_CTRL.PARK = 1 starts parking the block at its next frame boundary, or cancels an unpark in progress. -/
  | park (page : BitVec 12)
  /-- PARKED (R374): The block reaches PARKED at its frame boundary and sends parked output. -/
  | parked (page : BitVec 12)
  /-- UNPARK (R374): A write of PARK = 0 abandons a park in progress or moves a parked page to UNPARKING. -/
  | unpark (page : BitVec 12)
  /-- UNPARK_RESTART (R374): At the next frame boundary after unpark the block resumes without reset, each page kind as listed. -/
  | unparkRestart (page : BitVec 12)
  /-- PRESS (R375): A write of PRESS_CTRL.GO validates the page's staged set and either fails or waits to apply it. -/
  | press (page : BitVec 12)
  /-- PRESS_GO (R376): A write of SYS.PRESS_GO presses every page named in the press group as one press. -/
  | pressGo
  /-- DISCARD (R373): A write of PRESS_CTRL.DISCARD copies every live staged register into its twin. -/
  | discard (page : BitVec 12)
  /-- PRESS_APPLY (R485): At each line lane's frame boundary the validated staged values take force, all lanes or none. -/
  | pressApply (lane : Lane) (rx : Bool)
  /-- OUT_MODE_SWITCH_DONE (R120): After holding OFF for the reconfiguration, the new output mode is enabled at AMP code 0 and the press is reported done. -/
  | outModeSwitchDone (lane : Lane)
  /-- EPOCH (R378): A write to SYS.EPOCH strobes an epoch for the masked line lanes. -/
  | epoch (mask : Byte)
  /-- EPOCH_APPLY (R92): At a strobed lane's first frame boundary every held RWE value takes force together, except where FREEZE excludes the lane. -/
  | epochApply (lane : Lane) (rx : Bool)
  /-- NL_COPY_DONE (R124): The copy of the new live bank into the pending bank ends and NL_COPY clears. -/
  | nlCopyDone (lane : Lane)
  /-- RAMP_STEP (R73): At a frame boundary a ramped control moves one code toward its target. -/
  | rampStep (lane : Lane) (rx : Bool)
  /-- EVT_STAT_CLEAR (R389): A W1C write to an event status bit clears it, with a coincident set winning. -/
  | evtStatClear (addr : BitVec 22) (value : Word) (meets : List (Nat × Nat))
  /-- EVT_FORCE (R386): A write to EVT_FORCE raises the source as an occurrence with DETAIL 0x7F. -/
  | evtForce (page : BitVec 12) (value : Word)
  /-- LOG_GRANT (R390): The arbiter grants a queued log request, assigns SEQ and TIME and writes or drops the entry. -/
  | logGrant (ev : Fin 512)
  /-- LOG_LO_READ (R391): A read of LOG_LO snapshots the oldest unread entry, or sets EMPTY_RD. -/
  | logLoRead
  /-- LOG_POP (R391): A write of LOG_POP frees the snapshotted entry if it is still the oldest. -/
  | logPop
  /-- TX_FRAME (R45): The framer sends one line frame, choosing JC from the justification fill at its first comma and setting the header flags. -/
  | txFrame (lane : Lane) (hostA : List Int) (hostB : List Int) (ahead : List (Fin 4))
  /-- RX_FRAME (R46): The receiver checks the comma and decodes the header of one received frame and delivers or substitutes its payload. -/
  | rxFrame (lane : Lane) (samples : List Int) (wmk : List Int) (released : Nat)
  /-- LFM_JUST_OVF (R57): The justification buffer fill leaving 0 to 768 raises the event, discards or substitutes bits and sends the next frame empty. -/
  | lfmJustOvf (lane : Lane) (above : Bool) (hostA : List Int) (hostB : List Int)
  /-- LATE_TOKEN (R22): A token not arrived by its release time is replaced by the substitute to the end of its frame. -/
  | lateToken (lane : Lane) (rx : Bool) (token : Nat)
  /-- LOS_ASSERT (R104): After 64 blocks below the assert level LOS asserts, substitutes frames and raises LRXn_LOS. -/
  | losAssert (lane : Lane)
  /-- LOS_DEASSERT (R104): After 1,024 blocks above the deassert level LOS clears. -/
  | losDeassert (lane : Lane)
  /-- CDR_LOCK (R79): After 64 blocks of small drift CDR_LOCK sets. -/
  | cdrLock (lane : Lane)
  /-- CDR_UNLOCK (R79): A block whose drift exceeds 1/2 UI clears CDR_LOCK. -/
  | cdrUnlock (lane : Lane)
  /-- CLIP_BLOCK_END (R75): At the end of each 32,768-sample block the clip count is compared with CLIP_THR. -/
  | clipBlockEnd (lane : Lane)
  /-- GRADIENT_PUBLISH (R96): After N participating symbols the lane publishes its gradient set and fires the gradient-ready trigger. -/
  | gradientPublish (lane : Lane)
  /-- GRAD_STAT_READ (R97): A read of GRAD_STAT fixes the gradient view and reports READY once. -/
  | gradStatRead (page : BitVec 12)
  /-- QUALITY_WINDOW_END (R99): At the end of a window EQF, SER_PRE and BER_POST are published and compared with the alarm thresholds. -/
  | qualityWindowEnd (lane : Lane)
  /-- LTX_COMPLY (R119): A current-mode pin outside its window for over 1 us sets COMPLY and raises the event. -/
  | ltxComply (lane : Lane) (pinP : Bool) (pinN : Bool) (above : Bool)
  /-- COMPLY_CLEAR (R119): After 1 ms within the window COMPLY clears. -/
  | complyClear (lane : Lane)
  /-- WAV_PLAYBACK_UE (R127): A playback fetch found uncorrectable sends code 0, counts WAV_UE and raises the event on the first after a press. -/
  | wavPlaybackUe (lane : Lane) (sample : BitVec 16)
  /-- WAV_DATA_ACCESS (R126): A WAV_DATA access moves four samples and advances ADDR by 4. -/
  | wavDataAccess (lane : Lane) (write : Option Word)
  /-- NL_DATA_ACCESS (R124): An NL_DATA access reaches the pending bank, sets the dirty bit on write and may wait for a copy. -/
  | nlDataAccess (lane : Lane) (write : Option Word)
  /-- LANE_DUSK_ENTRY (R324): The lane idle timer reaching IDLE_T puts the lane in dusk and raises LRXn_DUSK. -/
  | laneDuskEntry (lane : Lane)
  /-- SIGNAL_DETECT_WAKE (R325): A dusk lane's detector rising above the deassert level moves it to Waking. -/
  | signalDetectWake (lane : Lane)
  /-- DUSK_EXIT (R325): A write to DUSK_CTRL.EXIT moves the named dusk lanes to Waking. -/
  | duskExit (mask : Byte)
  /-- LANE_WAKING_DONE (R325): Once the demand check passes the lane is powered, restarts with its held coefficients and raises PWR_DUSK_EXIT. -/
  | laneWakingDone (lane : Lane)
  /-- DUSK_BEACON (R326): Every BEACON_T in dusk the device sends a WAKE flare where allowed. -/
  | duskBeacon (lane : Lane)
  /-- SOURCE_FIRST_GOOD (R160): A derived clock's source good for 1 ms after restart slews the clock and starts the release delay. -/
  | sourceFirstGood (lane : Lane) (rx : Bool)
  /-- HOLDOVER_END (R161): Holdover's cause absent for 1 ms starts the slew of the derived clock to its source. -/
  | holdoverEnd (lane : Lane) (rx : Bool)
  /-- REALIGN (R161): At the first frame boundary after the slew the release delay is restored with one substituted frame and CLK_REALIGN is raised. -/
  | realign (lane : Lane) (rx : Bool)
  /-- DESYNC_RECENTRE (R163): A desynchroniser fill leaving 0 to 1,023 recentres at the next frame boundary and raises CLK_DESYNC_SLIP. -/
  | desyncRecentre (lane : Lane)
  /-- SLIP_BUFFER_RECENTRE (R158): A locked receiver's slip buffer leaving 0 to 127 recentres and raises CLK_DESYNC_SLIP. -/
  | slipBufferRecentre (lane : Lane)
  /-- DESKEW_RECENTRE (R151): A deskew fill leaving 0 to 511 recentres to 256, drops or inserts lane B bits and raises HRXh_PAIR_SLIP. -/
  | deskewRecentre (lane : Lane)
  /-- REFCLK_LOSS (R159): A reference clock stopping or leaving 500 ppm clears its OK bit and raises event 16 or 17. -/
  | refclkLoss (line : Bool)
  /-- REFCLK_OK (R159): A reference clock within 200 ppm for 1 ms sets its OK bit. -/
  | refclkOk (line : Bool) (ppm : Int)
  /-- HTX_PLL_LOCK (R486): The host transmit PLL locks and PLL_LOCK sets. -/
  | htxPllLock (host : Host16)
  /-- HTX_PLL_LOL (R486): A fault fall of PLL_LOCK raises the event and idles the output. -/
  | htxPllLol (host : Host16)
  /-- HRX_LOS_ASSERT (R140): Host receiver LOS asserts and raises HRXh_LOS. -/
  | hrxLosAssert (host : Host16)
  /-- HRX_CDR_LOL (R140): Host receiver CDR_LOCK falls and raises HRXh_CDR_LOL. -/
  | hrxCdrLol (host : Host16)
  /-- HQF_WINDOW_END (R139): At the end of an HQF window HQF is published and HQF_LOW is set or cleared. -/
  | hqfWindowEnd (host : Host16)
  /-- HRX_GRADIENT_PUBLISH (R138): A host receiver publishes its gradient set and fires its trigger. -/
  | hrxGradientPublish (host : Host16)
  /-- PRBS_CHECKER_LOCK (R141): After 64 error-free symbols the host pattern checker locks, and relocks after an error burst. -/
  | prbsCheckerLock (host : Host16)
  /-- LATENCY_MEASUREMENT (R168): The latency meter measures the reference bit of every 256th frame. -/
  | latencyMeasurement (lane : Lane) (rx : Bool) (hostB : Bool) (fs : Nat)
  /-- LAT_WINDOW_PUBLISH (R169): After 2^LAT_WIN measurements the meter publishes mean, minimum and maximum and increments LAT_SEQ. -/
  | latWindowPublish
  /-- LAT_STAT_READ (R169): A read of LAT_STAT fixes the latency view and reports READY once. -/
  | latStatRead
  /-- LAT_SEL_WRITE (R169): A write to LAT_SEL restarts the window. -/
  | latSelWrite (value : Word)
  /-- LAT_CTRL_WRITE (R169): A write changing EN or LAT_WIN restarts the window or stops measurement. -/
  | latCtrlWrite (value : Word)
  /-- DTC_LO_READ (R170): A read of DTC_LO snapshots both halves of the device time counter. -/
  | dtcLoRead
  /-- PPS_EDGE (R171): A PPS_IN edge captures the DTC, increments PPS_CNT and may raise LAT_PPS_MARK. -/
  | ppsEdge (falling : Bool)
  /-- PPS_TS_LO_READ (R171): A read of PPS_TS_LO snapshots both timestamp halves. -/
  | ppsTsLoRead
  /-- PPS_TIMEOUT (R171): No PPS edge for 1.5 s clears PPS_OK and raises LAT_PPS_LOS. -/
  | ppsTimeout
  /-- BG_ESTIMATE_DONE (R214): The estimate shadow phase ends and OFS_ERR, GAIN_ERR and SKEW_ERR are published. -/
  | bgEstimateDone (lane : Lane) (samples : List Shadow)
  /-- CAL_VERIFY (R214): A VERIFY command loads CAL_PEND into the out slice and starts the verify shadow phase. -/
  | calVerify (lane : Lane)
  /-- BG_VERIFY_DONE (R214): The verify shadow phase ends and RQF is published. -/
  | bgVerifyDone (lane : Lane) (samples : List Shadow)
  /-- CAL_SWAP (R216): A SWAP command with sufficient RQF requests the swap, or counts a failed attempt. -/
  | calSwap (lane : Lane)
  /-- SLICE_SWAP (R216): At the first frame boundary after the command and the interval, the out slice takes its target position. -/
  | sliceSwap (lane : Lane)
  /-- CAL_STAT_READ (R214): A read of CAL_STAT reports READY once after a publication. -/
  | calStatRead (lane : Lane)
  /-- FG_REQ (R219): A FG_REQ command on a parked lane starts foreground calibration. -/
  | fgReq (lane : Lane)
  /-- FOREGROUND_CAL_DONE (R219): Foreground calibration ends, sets the slice map and resumes signal detection. -/
  | foregroundCalDone (lane : Lane) (corrs : List Nat) (failed : List Nat) (rqfs : List Nat) (again : List Nat) (errors : Nat)
  /-- CORR_DATA_WRITE (R211): A CORR_DATA write sets a slice correction only while the lane is parked or not running. -/
  | corrDataWrite (lane : Lane) (value : Word)
  /-- IST_START (R223): IST_CTRL.START starts a lane or macro test or refuses it. -/
  | istStart (value : Word)
  /-- IST_DONE (R224): The in-service test ends, restores state, sets RESULT and raises event 26. -/
  | istDone (outcome : TestOutcome)
  /-- MPY (R186): Step MPY sets an accumulator to A times B. -/
  | stepMpy (e : Eng)
  /-- MAC (R186): Step MAC adds A times B to an accumulator. -/
  | stepMac (e : Eng)
  /-- MSU (R186): Step MSU subtracts A times B from an accumulator. -/
  | stepMsu (e : Eng)
  /-- ADD (R186): Step ADD forms a word sum or adds a shifted value to an accumulator. -/
  | stepAdd (e : Eng)
  /-- SUB (R186): Step SUB forms a word difference or subtracts a shifted value from an accumulator. -/
  | stepSub (e : Eng)
  /-- MIN (R186): Step MIN writes the smaller of A and B. -/
  | stepMin (e : Eng)
  /-- MAX (R186): Step MAX writes the larger of A and B. -/
  | stepMax (e : Eng)
  /-- MINX (R186): Step MINX replaces a register pair when A is smaller or INIT is set. -/
  | stepMinx (e : Eng)
  /-- MAXX (R186): Step MAXX replaces a register pair when A is larger or INIT is set. -/
  | stepMaxx (e : Eng)
  /-- SHL (R186): Step SHL shifts a word or accumulator left. -/
  | stepShl (e : Eng)
  /-- SHR (R186): Step SHR shifts a word or accumulator right. -/
  | stepShr (e : Eng)
  /-- AND (R186): Step AND writes A AND B. -/
  | stepAnd (e : Eng)
  /-- OR (R186): Step OR writes A OR B. -/
  | stepOr (e : Eng)
  /-- XOR (R186): Step XOR writes A XOR B. -/
  | stepXor (e : Eng)
  /-- LD (R192): Step LD issues a register read once earlier stores are accepted. -/
  | stepLd (e : Eng)
  /-- LD_DATA_RETURN (R193): The LD's data return and the step completes. -/
  | ldDataReturn (e : Eng)
  /-- ST (R192): Step ST posts a register write into the engine's write queue. -/
  | stepSt (e : Eng)
  /-- ST_QUEUE_FREE (R193): An ST waiting on a full write queue completes when an entry frees. -/
  | stQueueFree (e : Eng)
  /-- MOV (R186): Step MOV writes A to a word, accumulator or FLG. -/
  | stepMov (e : Eng)
  /-- BR (R186): Step BR branches unconditionally. -/
  | stepBr (e : Eng)
  /-- BRC (R186): Step BRC branches when COND holds. -/
  | stepBrc (e : Eng)
  /-- WAIT (R194): Step WAIT holds the engine until its source or timeout, ending at once for a true level source or IMM 0. -/
  | stepWait (e : Eng)
  /-- WAIT_SOURCE (R194): The awaited source occurs and the WAIT ends with C = 0. -/
  | waitSource (e : Eng)
  /-- WAIT_TIMEOUT (R194): The WAIT timeout ends and the WAIT ends with C = 1. -/
  | waitTimeout (e : Eng)
  /-- SIG (R195): Step SIG strobes an ADAC group, fires a software trigger or raises a SHEET_EVT event. -/
  | stepSig (e : Eng)
  /-- END (R186): Step END ends the run and clears the binding's FAIL_CNT. -/
  | stepEnd (e : Eng)
  /-- ENG_WDOG (R197): A run reaching 65,536 steps is aborted and raises event 144. -/
  | engWdog (e : Eng)
  /-- ENG_ABORT (R197): ENG_CTRL.ABORT aborts the run in progress with cause 8. -/
  | engAbort (e : Eng)
  /-- ENG_EN_WRITE (R203): A write to ENG_CTRL.EN lets or stops an engine taking new runs. -/
  | engEnWrite (e : Eng) (on : Bool)
  /-- HOST_CMD (R200): A write to SEQ.HOST_CMD fires every enabled binding with that code. -/
  | hostCmd (code : BitVec 9)
  /-- SEQ_TIMER_EXPIRY (R200): A SEQ timer expires and fires its bindings. -/
  | seqTimerExpiry (k : Fin 16)
  /-- TMR_WRITE (R208): A write to a SEQ timer restarts it. -/
  | tmrWrite (k : Fin 16) (value : Word)
  /-- REQUEST_DISPATCH (R202): An idle engine takes the oldest highest-priority request and starts the run. -/
  | requestDispatch
  /-- REQUEST_PROMOTION (R202): A request waiting AGE_T is promoted one priority level. -/
  | requestPromotion (idx : Nat)
  /-- DRAIN_TIMEOUT (R204): 150 us after a drain starts, runs still in progress are aborted with cause 10. -/
  | drainTimeout
  /-- XY_DATA_ACCESS (R178): An XY_DATA access reads or writes an engine word, mirrored in the mirrored area. -/
  | xyDataAccess (e : Eng) (write : Option Word)
  /-- SHEET_RELOAD_DONE (R313): An SHTM sheet reload ends, re-queues suspended runs or fails and invalidates the sheet. -/
  | sheetReloadDone (sheet : Byte) (flashOk : Bool)
  /-- SCRUB_LINE (R306): The scrubber reads one scrub line in its pass. -/
  | scrubLine (region : Fin 7) (upsets : List (Nat × BitVec 13)) (late : Bool)
  /-- SCRUB_WRITE_BACK (R302): In a later grant the scrubber writes back corrected bytes not rewritten meanwhile. -/
  | scrubWriteBack (mac : Fin 176) (bytes : List Nat)
  /-- LEAK_TICK (R308): Every LEAK_T each non-empty bucket loses 1. -/
  | leakTick
  /-- LEAK_T_WRITE (R308): A write of LEAK_T restarts the leak timer. -/
  | leakTWrite (value : Word)
  /-- UE_CLEAR (R311): UE_STAT.CLEAR empties UE_LOG and clears OVF. -/
  | ueClear
  /-- FLIP_MASK_WRITE (R315): A FLIP_MASK write arms an inversion of the next write to the region. -/
  | flipMaskWrite (value : Word)
  /-- MEM_RELOADED (R312): A recovery that rewrites words from the Ream ends and raises event 66. -/
  | memReloaded (region : Fin 7)
  /-- LP_REQ_WRITE (R327): A write of PWR_CTRL.LP_REQ requests or releases the low-power state. -/
  | lpReqWrite (req : Bool)
  /-- LPMODE_CHANGE (R327): LPMODE changing requests or releases low power where honoured. -/
  | lpmodeChange (high : Bool)
  /-- DEVICE_IDLE_EXPIRY (R327): With AUTO_LP, every enabled lane in dusk for DEV_IDLE_T starts low-power entry. -/
  | deviceIdleExpiry
  /-- LP_ENTRY_COMPLETE (R328): After the NV commit and seals, VCORE drops, domains power down and PWR_LP_ENTER is raised. -/
  | lpEntryComplete
  /-- PWR_WAKE_WRITE (R329): A write of PWR_CTRL.WAKE wakes the device where enabled. -/
  | pwrWakeWrite
  /-- WAKE_TIMER_EXPIRY (R329): The wake timer expires and wakes the device where enabled. -/
  | wakeTimerExpiry
  /-- LP_SIGNAL_DETECT (R329): Signal detect on an enabled lane wakes the device from low power. -/
  | lpSignalDetect (lane : Lane)
  /-- WAKE_DONE (R330): The wake-walk ends, dispatch resumes, PWR_WAKE is raised and lanes activate. -/
  | wakeDone (upsets : List (Nat × BitVec 13))
  /-- PACE_CHECK (R337): Each short window compares every running lane's margin with the floor and raises the VCORE target if below. -/
  | paceCheck (caps : List (Nat × Nat))
  /-- VCORE_REQ_WRITE (R339): A VCORE_REQ write raising the target is accepted, and one lowering it is checked and may be refused. -/
  | vcoreReqWrite (code : BitVec 6)
  /-- AVS_WRITE_DONE (R343): An AVSBus voltage frame completes and the next step of the move may start. -/
  | avsWriteDone (result : Fin 4) (readMv : Option Nat)
  /-- CONFIRMED_SET (R341): A full window after AVS_SETTLE on the replica and every lane sets CONFIRMED. -/
  | confirmedSet (caps : List (Nat × Nat)) (rep : Nat)
  /-- PWR_DOMAIN_FAULT (R322): A domain without power-good within 1 ms stays clamped, its blocks become UNUSABLE and event 40 is raised. -/
  | pwrDomainFault (domain : Fin 32)
  /-- SENSOR_STALE (R348): A sensor whose entry has not published for 30 ms becomes not VALID. -/
  | sensorStale (sensor : Fin 12)
  /-- HK_PASS_START (R246): A housekeeping sequence pass starts on its period, or counts an overrun. -/
  | hkPassStart (b : Bool)
  /-- HK_CONVERSION_DONE (R251): A conversion's last output arrives and its result is published. -/
  | hkConversionDone (b : Bool) (before bits : List Bool) (phases : List (BitVec 32)) (tied : Bool)
  /-- GUARD_TIMER_EXPIRY (R235): A laser's guard timer expires and LAS requests a guard conversion. -/
  | guardTimerExpiry (n : Lane)
  /-- HOST_REQ_START (R249): REQ_CTRL.START queues a host conversion or is refused. -/
  | hostReqStart (b : Bool)
  /-- RES_SUM_LO_READ (R253): A read of RES_SUM_LO snapshots the entry's result and reports READY once. -/
  | resSumLoRead (b : Bool) (slot : Fin 17)
  /-- FC_SYNC (R271): FC_CTRL.SYNC resets the converter's filter histories and restarts its conversion. -/
  | fcSync (b : Bool)
  /-- FC_SHIFT_CHANGE (R271): A write changing COMPAT or a shift causes a synchronising reset. -/
  | fcShiftChange (b : Bool) (value : Word)
  /-- FC_COMMIT (R267): FC_CTRL.COMMIT marks a bank's pending coefficients to take force at its next conversion. -/
  | fcCommit (b : Bool) (banks : BitVec 2)
  /-- FAST_TRIP (R234): An MPD photocurrent above the fast threshold trips the laser with cause 3. -/
  | fastTrip (n : Lane) (tied : Bool)
  /-- KEEP_TIMEOUT (R236): A laser's keep timer reaching KEEP_T trips it with cause 4. -/
  | keepTimeout (n : Lane) (tied : Bool)
  /-- HOLD_LB_WRITE (R236): A write of HOLD_LB sets the holding register and restarts the keep timer. -/
  | holdLbWrite (n : Lane) (value : Word)
  /-- RETRY_INTERVAL_END (R239): A laser's retry interval ends and it returns to ON. -/
  | retryIntervalEnd (n : Lane)
  /-- LASER_ON_10S (R239): A laser ON for 10 s without a trip clears its retry count. -/
  | laserOn10s (n : Lane)
  /-- LB_EN_WRITE (R239): A write of LB_CTRL.EN turns a laser ON or OFF. -/
  | lbEnWrite (n : Lane) (on : Bool)
  /-- SW_DIS_WRITE (R237): A write of SW_DIS disables or re-enables a laser. -/
  | swDisWrite (n : Lane) (dis : Bool)
  /-- CLR_FAULT (R239): CLR_FAULT moves a locked-out laser to ON. -/
  | clrFault (n : Lane)
  /-- TX_DIS_ASSERT (R237): TX_DIS rising turns masked lasers off and raises LAS_TXDIS. -/
  | txDisAssert
  /-- TX_DIS_DEASSERT (R237): TX_DIS falling returns lasers whose causes have cleared to B_n. -/
  | txDisDeassert
  /-- VAUX_LOW (R238): VAUX below 2.9 V forces every LB output off and raises LAS_VAUX_LOW. -/
  | vauxLow
  /-- VAUX_OK (R238): VAUX above 3.0 V for 10 ms sets VAUX_OK and lasers resume. -/
  | vauxOk
  /-- LDAC_N_FALL (R229): A valid LDAC_N falling edge strobes the masked ADAC groups. -/
  | ldacNFall (lowNs : Nat)
  /-- ADAC_STROBE (R229): A write of ADAC.STROBE copies a group's holding registers to its outputs. -/
  | adacStrobe (groups : BitVec 4)
  /-- NCO_RESTART (R232): NCO_CTRL.RESTART loads PHASE0 in this NCO and its gang. -/
  | ncoRestart (k : Fin 4)
  /-- NCO_WRAP_APPLY (R232): At the phase accumulator's wrap, pending FTW and AMP take force. -/
  | ncoWrapApply (k : Fin 4) (cycles : Nat)
  /-- NCO_TBL_WRITE (R232): A TBL_DATA write sets a table entry only while EN = 0 and advances TBL_ADDR. -/
  | ncoTblWrite (k : Fin 4) (value : Word)
  /-- MI2C_START (R254): MI2C_CMD.START runs one peripheral I2C transaction or is refused. -/
  | mi2cStart (p : Fin 2)
  /-- MI2C_DONE (R254): A peripheral I2C transaction ends, with ERR and MI2Cp_ERR on NACK. -/
  | mi2cDone (p : Fin 2) (nackAt : Option Nat) (rdata : List Byte)
  /-- MI2C_STUCK (R254): SCL held low over 25 ms ends the transaction with ERR 3 and frees the bus. -/
  | mi2cStuck (p : Fin 2) (rdata : List Byte)
  /-- WMK_SEND (R283): TX_CTRL.SEND queues a watermark frame with the next SEQ or is refused. -/
  | wmkSend (lane : Lane)
  /-- WMK_FRAME_START (R287): The highest-precedence queued frame begins at the end of any frame in progress. -/
  | wmkFrameStart (lane : Lane)
  /-- WMK_FRAME_SENT (R283): A frame's last symbol leaves, BUSY clears and DONE is set. -/
  | wmkFrameSent (lane : Lane)
  /-- READ_REQ (R284): A received READ_REQ is served against the CMIS map and a READ_RSP queued. -/
  | readReq (lane : Lane) (symbols : List Bool)
  /-- WRITE_REQ (R284): A received WRITE_REQ is served against the CMIS map and a WRITE_RSP queued. -/
  | writeReq (lane : Lane) (symbols : List Bool)
  /-- CAP (R285): A received CAP frame is stored in FAR_CAP. -/
  | capFrame (lane : Lane) (symbols : List Bool)
  /-- LAT (R286): A received LAT frame is stored in FAR_LAT and counted. -/
  | latFrame (lane : Lane) (symbols : List Bool)
  /-- WMK_SLOT_FRAME (R282): A READ_RSP, WRITE_RSP or USER frame enters a receive slot and raises WMKn_RX, or is dropped with WMKn_RX_OVF. -/
  | wmkSlotFrame (lane : Lane) (symbols : List Bool)
  /-- RX_RELEASE (R282): RX_CTRL.RELEASE frees the slot in view. -/
  | rxRelease (lane : Lane)
  /-- WMK_LOCK (R280): 128 consistent symbols set LOCK and may send a CAP frame. -/
  | wmkLock (lane : Lane) (peak : BitVec 12)
  /-- WMK_LOCK_LOSS (R280): 64 inconsistent symbols or demodulator stop clear LOCK and drop a frame in reception. -/
  | wmkLockLoss (lane : Lane)
  /-- CAP_TIMER (R285): Every CAP_T a CAP frame is queued. -/
  | capTimer (lane : Lane)
  /-- LAT_TIMER (R286): Every LAT_T a LAT frame is queued. -/
  | latTimer (lane : Lane)
  /-- FLARE_SEND (R289): FLARE_TX.SEND starts a flare of the code after any frame in progress, or refuses it. -/
  | flareSend (lane : Lane)
  /-- FLARE_TX_END (R289): A flare ends complete or early, sets RESULT and COPIES and raises WMKn_FLARE_TX. -/
  | flareTxEnd (lane : Lane) (copies : Nat)
  /-- FLARE_CROSSING (R290): 20 us below the comparator level sets FLARE_RX and issues a flare guard. -/
  | flareCrossing (lane : Lane)
  /-- FLARE_RX_CLEAR (R290): 1 ms above the level or 12 ms after the last guard clears FLARE_RX. -/
  | flareRxClear (lane : Lane)
  /-- HOLD_EXPIRY (R293): HOLD_T after the last HOLD_OFF, HOLD clears. -/
  | holdExpiry (lane : Lane)
  /-- OBS_SNAP (R410): OBS_CTRL.SNAP takes a snapshot of a point group, clearing counters with CLR, or is refused. -/
  | obsSnap (clr : Bool)
  /-- SNAP_DONE (R410): The snapshot copy ends and BUSY clears. -/
  | snapDone
  /-- OBS_ACK (R408): OBS_CTRL.ACK returns a selected RESTARTED point to VALID. -/
  | obsAck
  /-- VALUE_LO_READ (R408): A read of VALUE_LO snapshots the selected point's value, kind and status. -/
  | valueLoRead
  /-- CAP_ARM (R416): CAP_CTRL.ARM starts a capture in state S0 or is refused. -/
  | capArm (k : Fin 4)
  /-- CAP_STOP (R417): CAP_CTRL.STOP ends the capture. -/
  | capStop (k : Fin 4)
  /-- CAP_FORCE (R416): CAP_CTRL.FORCE triggers the capture now. -/
  | capForce (k : Fin 4)
  /-- CAP_TIMER_EXPIRY (R416): A constellation timer expires and its condition becomes true. -/
  | capTimerExpiry (k : Fin 4) (second : Bool)
  /-- CAP_DONE (R417): After CAP_POST records the capture stops and raises CAPk_DONE. -/
  | capDone (k : Fin 4)
  /-- CAP_BUFFER_HIGH (R418): A buffer over 192 records doubles D, writes a MARK and raises CAPk_RATE. -/
  | capBufferHigh (k : Fin 4)
  /-- CAP_DATA_LO_READ (R423): A read of CAP_DATA_LO snapshots a capture record. -/
  | capDataLoRead (k : Fin 4)
  /-- TRACE_POINT_TIMER (R421): Every TRC_PER the valid trace points are read at one instant and queued. -/
  | tracePointTimer
  /-- ATTEST (R437): SEC_CMD ATTEST builds an attestation report over the nonce once ID_READY is set. -/
  | attest
  /-- ATTEST_DONE (R437): The signed report becomes readable. -/
  | attestDone (salt : List Byte)
  /-- ROLL_ADV (R439): SEC_CMD ROLL_ADV blows counter fuses up to the Ream's ROLLBACK. -/
  | rollAdv (unlock : BitVec 16)
  /-- KEY_PROG (R440): SEC_CMD KEY_PROG writes a key digest into an unprogrammed slot. -/
  | keyProg (unlock : BitVec 16) (slot : BitVec 2)
  /-- KEY_REVOKE (R440): SEC_CMD KEY_REVOKE blows a slot's revocation fuse. -/
  | keyRevoke (unlock : BitVec 16) (slot : BitVec 2)
  /-- OBS_LOCK (R441): SEC_CMD OBS_LOCK blows the observation lock fuse. -/
  | obsLock (unlock : BitVec 16)
  /-- FUSE_BLOW_DONE (R438): A fuse blow ends, is read back and raises SEC_FUSE_PROG. -/
  | fuseBlowDone (ok : Bool)
  /-- DL_DATA_WRITE (R434): A DL_DATA write fills the download buffer and takes CAP0. -/
  | dlDataWrite (value : Word)
  /-- DL_VERIFY (R434): SEC_CMD DL_VERIFY runs checks 2 to 8 on the downloaded image. -/
  | dlVerify
  /-- DL_PROGRAM (R434): SEC_CMD DL_PROGRAM starts erasing and programming a flash slot. -/
  | dlProgram (slot : BitVec 2)
  /-- DL_PROGRAM_DONE (R434): Programming, read-back and header write end and a BOOT record makes the slot preferred. -/
  | dlProgramDone (ok : Bool)
  /-- DL_ACTIVATE (R435): SEC_CMD DL_ACTIVATE drains the engines to place the image in force. -/
  | dlActivate
  /-- DL_ACTIVATE_DONE (R435): Sheets, XY, tables and SEQ defaults are loaded, dispatch resumes and SEC_DL_DONE is raised. -/
  | dlActivateDone
  /-- DL_ABORT (R434): SEC_CMD DL_ABORT empties the buffer and returns CAP0. -/
  | dlAbort
  /-- SET_PREF (R443): SEC_CMD SET_PREF appends a BOOT record naming the preferred slot. -/
  | setPref (slot : BitVec 2)
  /-- ID_READY (R436): Identity key derivation ends, sets ID_READY and raises event 102. -/
  | idReady
  /-- REC_WRITE (R443): REC_CMD.WRITE appends an NV record from the buffer or is refused. -/
  | recWrite
  /-- REC_READ (R443): REC_CMD.READ loads the holding record into the buffer. -/
  | recRead
  /-- BLACKBOX (R445): REC_CMD.BLACKBOX writes a black-box record of the last 256 log entries. -/
  | blackbox
  /-- NV_RECORD_COMMIT (R443): An NV record's commit word is written and the record holds. -/
  | nvRecordCommit
  /-- POR_ASSERT (R449): VAUX below 2.70 V asserts power-on reset and all outputs take their pre-ready states. -/
  | porAssert
  /-- POR_RELEASE (R451): VAUX above 3.05 V for 1 ms releases power-on reset and bring-up runs. -/
  | porRelease (env : BootEnv)
  /-- RAIL_LATE (R450): A rail still missing 200 ms after release sets RAIL_LATE and its domains are treated as faulted. -/
  | railLate
  /-- RESET_N (R455): RESET_N low forces lasers off and holds reset, restarting bring-up from step 2 at the rising edge. -/
  | resetN (lowNs : Nat) (env : BootEnv)
  /-- DEV_RST (R455): RST_CTRL.DEV_RST with the key resets the device from bring-up step 2. -/
  | devRst (key : BitVec 16) (env : BootEnv)
  /-- HRX_LOS_DEASSERT (R140): Host receiver LOS clears after 1,024 blocks above the deassert level, ending the host lane's substitute in the transmit direction. -/
  | hrxLosDeassert (host : Host16)
  /-- HRX_CDR_LOCK (R140): Host receiver CDR_LOCK sets after 64 blocks of small drift, letting gradients publish and ending that cause of substitution. -/
  | hrxCdrLock (host : Host16)
  /-- HUNT_COMMA_FOUND (R60): In HUNT a comma found at any symbol position sets the frame phase, moves FSTATE to PRESYNC and switches the main section to the 64-state trellis. -/
  | huntCommaFound (lane : Lane) (ahead : Nat) (samples : List Int) (wmk : List Int)
  /-- AV_DITHER_UPDATE (R231): At each 1.28 MS/s update a dithered AV output is recomputed, and a saturated update sets AV_SAT and raises ADAC_AV_SAT on its rise. -/
  | avDitherUpdate (m : Fin 16) (cycles : Nat)
  /-- CONSTELLATION_TICK (R416): Every 2.56 ns tick an armed constellation evaluates its state's conditions A and B, takes a transition, runs its actions and may trigger. -/
  | constellationTick (k : Fin 4) (count : Nat) (pps : Bool)
  /-- POWER_GOOD (R322): A domain's power-good signal arrives, after which the device resets its logic, releases the clamps and restarts its blocks. -/
  | powerGood (domain : Fin 32)
  /-- RAIL_IN_RANGE (R450): An external rail that was missing after power-on release comes within its recommended range, and the boot steps that need it proceed. -/
  | railInRange
  deriving DecidableEq, Repr

end Sys2Proof
end

