-- ==== Sys2Proof/Config.lean ====
section
/-! DEFINITION. What the spec leaves open: constants of one device and free values, none with a body, so that nothing in Lean can see what they are (log entries 3 and 4). -/

namespace Sys2Proof

/-- What a memory byte that nothing has written holds after power-up, where the device does not initialise it (R305). -/
opaque Config.powerUpByte : Nat → BitVec 8

/-- The error that the stored check bits of such a byte show against its data (R305). -/
opaque Config.powerUpCheck : Nat → BitVec 5

/-- Symbol `i` of PRBS13Q from the standard's seed (R152; IEEE 802.3), a level. -/
opaque Config.prbs13q : Nat → Fin 4

/-- Symbol `i` of PRBS31Q from the standard's seed (R129, R153; IEEE 802.3), a level. -/
opaque Config.prbs31q : Nat → Fin 4

/-- Symbol `i` of SSPRQ from the standard's seed (R129, R144; IEEE 802.3), a level. -/
opaque Config.ssprq : Nat → Fin 4

/-- The IEEE 802.3dj transmit coder: its state before, the host bits and the number of line symbols of a timing frame, to its state after (R66). -/
opaque Config.stdEncState : Nat → List Bool → Nat → Nat

/-- The level of line symbol `i` that the IEEE 802.3dj transmit coder sends from that state and those host bits (R66). -/
opaque Config.stdEncLevel : Nat → List Bool → Nat → Fin 4

/-- The reliability that the soft-output detector of STD200 gives a symbol's first or second bit, from its path metrics by level; the spec names it and not its formula (R90). -/
opaque Config.softRel : Nat → List Nat → Int

/-- The gain of a CTLE code above 0 for the swing of the signal, in 1/65,536; the spec gives the peaking relative to DC (R72, R104). -/
opaque Config.ctleSwing : Nat → Nat

/-- Where host bits show the alignment markers of a FEC symbol distribution, by MON_FMT: the bit at which a marker period begins, and whether every symbol of each codeword arrives on the line lane; the formats are those of IEEE 802.3 (R102). -/
opaque Config.monAlign : Nat → List Bool → Option (Nat × Bool)

/-- The host bits of a marker period on one line lane and the codewords that it carries (R102). -/
opaque Config.monPeriod : Nat → Nat × Nat

/-- The place in a marker period of bit `j` of symbol `i` of codeword `c` (R102). -/
opaque Config.monPlace : Nat → Nat → Nat → Nat → Nat

/-- The place in the pattern, by CHK_SEL, that the pattern checker seeks from its newest 64 decisions, for the symbol that follows them; the spec does not say how it seeks (R141). -/
opaque Config.chkSeek : Nat → List Nat → Nat

/-- The state of the IEEE 802.3dj receive decoder after the bit reliabilities of a timing frame (R66, R90). -/
opaque Config.stdDecState : Nat → List Int → Nat

/-- Host bit `i` that the receive decoder delivers (R66). -/
opaque Config.stdDecBit : Nat → List Int → Nat → Bool

/-- The alignment that the receive decoder's state shows under the standard's lock rule: 0 = sought, 1 = partly met, 2 = locked (R67). -/
opaque Config.stdAlign : Nat → Fin 3

/-- Whether the slicer used for comma search decides symbol `i` as the level that a list of equalised samples gives; the spec names the slicer and not its thresholds (R59): its decision for the levels and the sample. -/
opaque Config.commaSlice : List Int → Int → Fin 4

/-- A decision the spec leaves to the device, by its place and the operands: a tie or a rounding the spec does not fix (log entry 4). -/
opaque Config.openChoice : Nat → Int → Int

/-- A fresh value the spec leaves open, by the counter of open values drawn (log entry 3). -/
opaque Config.freeValue : Nat → BitVec 64

/-- The temperature grade and silicon step in the fuses, DEV_ID[27:16] (R381). -/
opaque Config.devGrade : BitVec 12

/-- The ideality factor of on-die diode `i`, trimmed by fuse, times 32,768 (R349). -/
opaque Config.dieEta : Nat → Nat

/-- Coefficient `i`, 0 to 11, of the half-band filter of the housekeeping chain, whose 23 taps mirror them (R260, R262). -/
opaque Config.hbCoef : Nat → Int

/-- The divisor of the half-band filter's sum as a power of two, with the gain trim of manufacture (R263). -/
opaque Config.hbShift : Nat

/-- The vendor coefficient h_i of the compensating filter, a 20-bit code, where the whole set has a DC gain of exactly 1.0 (R266). -/
opaque Config.vendorTap : Nat → BitVec 20

/-- The two bits of 13 that double-bit pattern `i` of the start-up checker test inverts (R316). -/
opaque Config.checkPair : Fin 6 → Fin 13 × Fin 13

/-- What fuse repair uses of the spares of a macro: columns in bits [2:0], rows in [4:3] (R317, R319). -/
opaque Config.fuseRepair : Nat → BitVec 5

/-- Byte `i` of the SHA-512 digest of the vendor root's key block, which slot 0 holds from manufacture (R430). -/
opaque Config.vendorKeyDigest : Nat → BitVec 8

/-- Byte `i` of the 256-bit identity seed of the fuses, which no port and no sheet reads (R430, R436). -/
opaque Config.idSeed : Nat → BitVec 8

/-- Byte `i` of the 1,024-byte fuse shadow with the identity seed read as zeros, whose layout the spec does not give, by what the fuses of this model hold (R437). -/
opaque Config.fuseShadowByte : List Nat → Nat → BitVec 8

/-- Byte `i` of the gateway's ROM image of CMIS page 00h and of lower memory, where the spec does not give it (R380). -/
opaque Config.cmisRom : Nat → BitVec 8

/-- Bytes of the I3C identity that the spec does not give: the provisioned ID in bytes 0 to 5, BCR in 6 and DCR in 7 (R362). -/
opaque Config.i3cId : Nat → BitVec 8

end Sys2Proof
end

