-- ==== Sys2Proof/Machine/Bits.lean ====
section
/-! DEFINITION. Bit fields of numbers, two's complement, saturation, rounding and the byte orders that the chapters share. -/

namespace Sys2Proof.Machine

/-- Bits [lsb + w − 1 : lsb] of a number. -/
def bits (v lsb w : Nat) : Nat := (v >>> lsb) % 2 ^ w

/-- One bit of a number. -/
def tb (v i : Nat) : Bool := v.testBit i

/-- A number with bits [lsb + w − 1 : lsb] replaced by the low `w` bits of `x`. -/
def setBits (v lsb w x : Nat) : Nat :=
  v - (bits v lsb w) * 2 ^ lsb + (x % 2 ^ w) * 2 ^ lsb

/-- The two's complement value of the low `w` bits. -/
def sx (w v : Nat) : Int :=
  let u := v % 2 ^ w
  if u < 2 ^ (w - 1) then (u : Int) else (u : Int) - (2 ^ w : Nat)

/-- The `w`-bit two's complement code of an integer. -/
def enc2 (w : Nat) (i : Int) : Nat := (i % ((2 ^ w : Nat) : Int)).toNat

/-- The nearer end for a value outside `lo` to `hi`, the value otherwise. -/
def clampI (lo hi x : Int) : Int := if x < lo then lo else if hi < x then hi else x

/-- The nearer end for a number outside `lo` to `hi`. -/
def clampN (lo hi x : Nat) : Nat := if x < lo then lo else if hi < x then hi else x

/-- `a / b` rounded half up (towards plus infinity), `b` positive. -/
def roundHalfUp (a : Int) (b : Nat) : Int := (2 * a + b) / (2 * (b : Int))

/-- `a / b` rounded to the nearest integer, halves away from zero, `b` positive. -/
def roundNear (a : Int) (b : Nat) : Int :=
  if 0 ≤ a then roundHalfUp a b else - roundHalfUp (-a) b

/-- The bits of the low `w` bits of a number, most significant first. -/
def msbFirst : Nat → Nat → List Bool
  | 0, _ => []
  | w + 1, v => v.testBit w :: msbFirst w v

/-- The number that a list of bits spells, most significant first. -/
def ofMsb : List Bool → Nat
  | bs => bs.foldl (fun a b => 2 * a + bit b) 0

/-- The `k` bytes of a number, lowest first. -/
def bytesLE : Nat → Nat → List (BitVec 8)
  | 0, _ => []
  | k + 1, v => BitVec.ofNat 8 v :: bytesLE k (v / 256)

/-- The number that bytes spell, lowest first. -/
def ofLE : List (BitVec 8) → Nat
  | [] => 0
  | b :: r => b.toNat + 256 * ofLE r

/-- The number that bytes spell, highest first. -/
def ofBE (l : List (BitVec 8)) : Nat := l.foldl (fun a b => 256 * a + b.toNat) 0

/-- The element of a list, or a default outside it. -/
def nth {α : Type} (d : α) (l : List α) (i : Nat) : α := (l[i]?).getD d

/-- A list with its element at `i` changed (the list itself where `i` lies outside it). -/
def modNth {α : Type} (l : List α) (i : Nat) (f : α → α) : List α :=
  match l, i with
  | [], _ => []
  | a :: r, 0 => f a :: r
  | a :: r, i + 1 => a :: modNth r i f

/-- The sum of a list of integers. -/
def sumI (l : List Int) : Int := l.foldl (· + ·) 0

/-- `l` cut into pieces of `k` elements, the last perhaps shorter; `fuel` bounds the number of pieces. -/
def chunk {α : Type} (k : Nat) : Nat → List α → List (List α)
  | 0, _ => []
  | _ + 1, [] => []
  | fuel + 1, l => l.take k :: chunk k fuel (l.drop k)

/-- The CRC-8 register after one byte: x^8 + x^2 + x + 1, no reflection (R44). -/
def crc8Byte (c : Nat) (b : Nat) : Nat :=
  (List.range 8).foldl (fun a _ => if a.testBit 7 then ((a * 2) % 256) ^^^ 0x07 else (a * 2) % 256) (c ^^^ b)

/-- The CRC-8 of R44 over bytes, first to last, initial value 0. -/
def crc8 (l : List Nat) : Nat := l.foldl crc8Byte 0

end Sys2Proof.Machine
end

