-- ==== Sys2Proof/Machine/Operands.lean ====
section
/-! DEFINITION. The operand forms of an engine step: the fields of the 64-bit step word (R180, R185), the source and destination codes (R183, R184), the classes of destination each opcode takes (R186), the post-modify codes (R181) and the branch conditions (R182). -/

namespace Sys2Proof.Machine

/-- The fields of a step word (R180). -/
structure StepWord where
  op : Nat
  sat : Bool
  cond : Nat
  dst : Nat
  xag : Nat
  yag : Nat
  imm : Nat
  sig : Nat
  aux : Nat
  deriving DecidableEq, Repr

/-- The fields of a 64-bit word of SHTM (R180). -/
def stepFields (w : Nat) : StepWord :=
  { op := bits w 58 6, sat := tb w 57, cond := bits w 54 3, dst := bits w 48 6, xag := bits w 44 4, yag := bits w 40 4,
    imm := bits w 24 16, sig := bits w 16 8, aux := bits w 0 16 }

/-- SRC_A (R185). -/
def StepWord.srcA (f : StepWord) : Nat := bits f.aux 0 4
/-- SRC_B (R185). -/
def StepWord.srcB (f : StepWord) : Nat := bits f.aux 4 4
/-- SH (R185). -/
def StepWord.sh (f : StepWord) : Nat := bits f.aux 8 6
/-- MODE, which is INIT for MINX and MAXX (R185). -/
def StepWord.mode (f : StepWord) : Bool := tb f.aux 14
/-- SHB (R185). -/
def StepWord.shb (f : StepWord) : Bool := tb f.aux 15
/-- PAGE of LD and ST (R185). -/
def StepWord.page (f : StepWord) : Nat := bits f.aux 0 12
/-- INST of LD and ST (R185). -/
def StepWord.useInst (f : StepWord) : Bool := tb f.aux 12
/-- BSH of LD and ST (R185). -/
def StepWord.bsh (f : StepWord) : Nat := bits f.aux 13 2
/-- IDX of LD and ST (R185). -/
def StepWord.idx (f : StepWord) : Bool := tb f.aux 15
/-- The X generator that a step selects (R180). -/
def StepWord.xGen (f : StepWord) : Nat := bits f.xag 2 2
/-- The Y generator that a step selects (R180). -/
def StepWord.yGen (f : StepWord) : Nat := 4 + bits f.yag 2 2

/-- The opcodes (R186). -/
inductive Op where
  | mpy | mac | msu | add | sub | min | max | minx | maxx | shl | shr | and | or | xor
  | ld | st | mov | br | brc | wait | sig | end_
  deriving DecidableEq, Repr

/-- The opcode that an OP value names; none for a reserved value (R186). -/
def opOf (v : Nat) : Option Op :=
  match v with
  | 0x01 => some .mpy | 0x02 => some .mac | 0x03 => some .msu | 0x04 => some .add | 0x05 => some .sub
  | 0x06 => some .min | 0x07 => some .max | 0x08 => some .minx | 0x09 => some .maxx | 0x0A => some .shl
  | 0x0B => some .shr | 0x0C => some .and | 0x0D => some .or | 0x0E => some .xor | 0x10 => some .ld
  | 0x11 => some .st | 0x12 => some .mov | 0x18 => some .br | 0x19 => some .brc | 0x1A => some .wait
  | 0x1B => some .sig | 0x1F => some .end_ | _ => none

/-- The destinations (R183). -/
inductive Dst where
  | acc (i : Nat)
  | xmem | ymem
  | t (i : Nat)
  | ptr (g : Nat) | md (g : Nat) | base (g : Nat) | len (g : Nat)
  | flg
  | none
  deriving DecidableEq, Repr

/-- The destination that a code names; `Option.none` for a reserved code (R183). -/
def dstOf (c : Nat) : Option Dst :=
  if c < 2 then some (.acc c)
  else if c = 2 then some .xmem
  else if c = 3 then some .ymem
  else if 0x08 ≤ c ∧ c < 0x10 then some (.t (c - 0x08))
  else if 0x10 ≤ c ∧ c < 0x18 then some (.ptr (c - 0x10))
  else if 0x18 ≤ c ∧ c < 0x20 then some (.md (c - 0x18))
  else if 0x20 ≤ c ∧ c < 0x28 then some (.base (c - 0x20))
  else if 0x28 ≤ c ∧ c < 0x30 then some (.len (c - 0x28))
  else if c = 0x30 then some .flg
  else if c = 0x3F then some .none
  else Option.none

/-- Whether a destination is of class Word (R183). -/
def Dst.isWord : Dst → Bool
  | .xmem | .ymem | .t _ | .ptr _ | .md _ | .base _ | .len _ => true
  | _ => false

/-- Whether a destination is of class ACC (R183). -/
def Dst.isAcc : Dst → Bool
  | .acc _ => true
  | _ => false

/-- Whether an opcode takes a destination (R186): its row's classes. -/
def opTakes (o : Op) (d : Dst) : Bool :=
  match o with
  | .mpy | .mac | .msu => d.isAcc
  | .add | .sub | .shl | .shr => d.isWord || d.isAcc || d == .none
  | .min | .max | .and | .or | .xor => d.isWord || d == .none
  | .minx | .maxx => d == .t 0 || d == .t 2 || d == .t 4 || d == .t 6
  | .ld => d.isWord
  | .mov => d.isWord || d.isAcc || d == .flg || d == .none
  | .st | .br | .brc | .wait | .sig | .end_ => true

/-- The sources (R184). -/
inductive Src where
  | xd | yd | imm
  | acc (i : Nat)
  | zero | immh | xptr
  | t (i : Nat)
  deriving DecidableEq, Repr

/-- The source that a code names (R184). -/
def srcOf (c : Nat) : Src :=
  match c with
  | 0 => .xd | 1 => .yd | 2 => .imm | 3 => .acc 0 | 4 => .acc 1 | 5 => .zero | 6 => .immh | 7 => .xptr
  | n => .t (n - 8)

/-- Whether an opcode zero-extends IMM (R187). -/
def zeroExt : Op → Bool
  | .and | .or | .xor | .shl | .shr => true
  | _ => false

/-- The sources that a step reads, from its opcode and destination (R184 to R186). -/
def sourcesOf (o : Op) (d : Dst) (f : StepWord) : List Src :=
  match o with
  | .mpy | .mac | .msu | .min | .max | .minx | .maxx | .and | .or | .xor => [srcOf f.srcA, srcOf f.srcB]
  | .add | .sub => if d.isAcc then [srcOf f.srcA] else [srcOf f.srcA, srcOf f.srcB]
  | .shl | .shr =>
    (if d.isAcc then [] else [srcOf f.srcA]) ++ (if f.shb then [srcOf f.srcB] else [])
  | .mov => [srcOf f.srcA]
  | .st => [srcOf (f.dst % 16)]
  | .sig => if 0x80 ≤ f.sig then [srcOf f.srcA] else []
  | .ld | .br | .brc | .wait | .end_ => []

/-- Whether COND holds in the flags Z, N, V, S, C of bits 0 to 4 (R182, R176). -/
def condHolds (cond : Nat) (flg : BitVec 5) : Bool :=
  match cond with
  | 0 => true
  | 1 => flg.getLsbD 0
  | 2 => !flg.getLsbD 0
  | 3 => flg.getLsbD 1
  | 4 => !flg.getLsbD 1
  | 5 => flg.getLsbD 4
  | 6 => !flg.getLsbD 4
  | _ => flg.getLsbD 2

end Sys2Proof.Machine
end

