-- ==== Sys2Proof/Machine/Flags.lean ====
section
/-! DEFINITION. The engine's arithmetic: narrowing and fitting with the flags V and S (R188, R189), the result, the value and the carry of every computing opcode (R186), and the move of an address generator (R191). -/

namespace Sys2Proof.Machine

/-- A value held to `w` bits: the value, whether V is set, whether S is set (R189). -/
def fit (w : Nat) (sat : Bool) (v : Int) : Int × Bool × Bool :=
  let hi : Int := ((2 ^ (w - 1) : Nat) : Int) - 1
  let lo : Int := - ((2 ^ (w - 1) : Nat) : Int)
  if lo ≤ v ∧ v ≤ hi then (v, false, false)
  else if sat then (if hi < v then hi else lo, true, true)
  else (sx w (enc2 w v), true, false)

/-- The value of an accumulator narrowed by SH bits before it is held to 24 bits (R188). -/
def narrowRaw (sh : Nat) (acc : Int) : Int :=
  let s := if 56 ≤ sh then 55 else sh
  if s = 0 then acc else (acc + ((2 ^ (s - 1) : Nat) : Int)) / ((2 ^ s : Nat) : Int)

/-- What a computing step forms: the exact result for its destination, and the carry where the opcode names one (R186). -/
structure AluOut where
  val : Int
  carry : Option Bool
  deriving DecidableEq, Repr

/-- The last bit that a left shift by `n` moves out of a `w`-bit word; a shift by 0 moves none, and the value is open (log entry 5). -/
def shlCarry (w : Nat) (v : Int) (n : Nat) : Bool :=
  if n = 0 then Config.openChoice 1 v % 2 == 1
  else if n ≤ w then tb (enc2 w v) (w - n) else false

/-- The last bit that a right shift by `n` moves out of a `w`-bit word; a shift by 0 moves none, and the value is open (log entry 5). -/
def shrCarry (w : Nat) (arith : Bool) (v : Int) (n : Nat) : Bool :=
  if n = 0 then Config.openChoice 2 v % 2 == 1
  else if n ≤ w then tb (enc2 w v) (n - 1) else arith && decide (v < 0)

/-- The shift count: SH, or B[5:0] when SHB = 1 (R186). -/
def shiftCount (f : StepWord) (b : Int) : Nat := if f.shb then (b % 64).toNat else f.sh

/-- `v` shifted right arithmetically. -/
def asr (v : Int) (n : Nat) : Int := v / ((2 ^ n : Nat) : Int)

/-- The result of a computing opcode on sources A and B, `acc` being the accumulator that DST names (R186). MINX, MAXX and the opcodes that compute nothing answer A. -/
def alu (o : Op) (accForm : Bool) (f : StepWord) (a b acc : Int) : AluOut :=
  let n := shiftCount f b
  let p : Int := ((2 ^ f.sh : Nat) : Int)
  match o with
  | .mpy => ⟨a * b, none⟩
  | .mac => ⟨acc + a * b, none⟩
  | .msu => ⟨acc - a * b, none⟩
  | .add =>
    if accForm then ⟨acc + a * p, none⟩
    else ⟨a + b, some (decide (2 ^ 24 ≤ enc2 24 a + enc2 24 b))⟩
  | .sub =>
    if accForm then ⟨acc - a * p, none⟩
    else ⟨a - b, some (decide (enc2 24 a < enc2 24 b))⟩
  | .min => ⟨if b < a then b else a, some (decide (b < a))⟩
  | .max => ⟨if a < b then b else a, some (decide (a < b))⟩
  | .shl =>
    if accForm then ⟨if 56 ≤ n then 0 else acc * ((2 ^ n : Nat) : Int), some (shlCarry 56 acc n)⟩
    else ⟨if 24 ≤ n then 0 else a * ((2 ^ n : Nat) : Int), some (shlCarry 24 a n)⟩
  | .shr =>
    if accForm then ⟨asr acc n, some (shrCarry 56 true acc n)⟩
    else if f.mode then ⟨asr a n, some (shrCarry 24 true a n)⟩
    else ⟨sx 24 (enc2 24 a / 2 ^ n), some (shrCarry 24 false a n)⟩
  | .and => ⟨sx 24 (enc2 24 a &&& enc2 24 b), none⟩
  | .or => ⟨sx 24 (enc2 24 a ||| enc2 24 b), none⟩
  | .xor => ⟨sx 24 (enc2 24 a ^^^ enc2 24 b), none⟩
  | .mov => if accForm then ⟨a * p, none⟩ else ⟨a, none⟩
  | .minx | .maxx | .ld | .st | .br | .brc | .wait | .sig | .end_ => ⟨a, none⟩

/-- Whether MINX or MAXX replaces its pair, `td` being the first register of the pair (R186). -/
def replaces (o : Op) (f : StepWord) (a td : Int) : Bool :=
  f.mode || (match o with
    | .minx => decide (a < td)
    | _ => decide (td < a))

/-- FLG with Z and N of a value (R186). -/
def setZN (flg : BitVec 5) (v : Int) : BitVec 5 :=
  (flg &&& 0b11100#5) ||| (if v = 0 then 1#5 else 0#5) ||| (if v < 0 then 2#5 else 0#5)

/-- FLG with V and S set where they are called for; both are sticky (R189). -/
def setVS (flg : BitVec 5) (v s : Bool) : BitVec 5 :=
  flg ||| (if v then 4#5 else 0#5) ||| (if s then 8#5 else 0#5)

/-- FLG with C (R186). -/
def setC (flg : BitVec 5) (c : Bool) : BitVec 5 :=
  (flg &&& 0b01111#5) ||| (if c then 16#5 else 0#5)

/-- FLG with C where the opcode names it. -/
def setCarry (flg : BitVec 5) : Option Bool → BitVec 5
  | none => flg
  | some c => setC flg c

/-- PTR moved by `delta` within its circular buffer (R191). -/
def agMove (ptr base len : BitVec 13) (delta : Int) : BitVec 13 :=
  let off := (ptr.toNat + 8192 - base.toNat) % 8192
  let length := if len = 0 then 8192 else len.toNat
  if off < length then BitVec.ofInt 13 ((base.toNat : Int) + ((off : Int) + delta) % (length : Int))
  else BitVec.ofInt 13 ((ptr.toNat : Int) + delta)

/-- The distance that a post-modify code moves a pointer (R181). -/
def postDelta (code : Nat) (md : BitVec 13) : Int :=
  match code % 4 with
  | 0 => 0
  | 1 => 1
  | 2 => -1
  | _ => md.toInt

end Sys2Proof.Machine
end

