-- ==== Sys2Proof/Machine/KMap.lean ====
section
/-! DEFINITION. Sparse data by key: a list of (key, value) pairs in one canonical form. Keys rise strictly and no entry holds the value that its key reads as when it is not listed, so that equal contents are equal lists. -/

namespace Sys2Proof.Machine

/-- A sparse table of values by number. -/
abbrev KMap (α : Type) := List (Nat × α)

/-- The value at key `k`; `d` is what an unlisted `k` reads as. -/
def kget {α : Type} (d : α) : KMap α → Nat → α
  | [], _ => d
  | (k', v) :: r, k => if k = k' then v else kget d r k

/-- The table without key `k`. -/
def kdel {α : Type} (k : Nat) : KMap α → KMap α
  | [] => []
  | e :: r => if e.1 = k then kdel k r else e :: kdel k r

/-- The table with an entry for key `k`, which it does not list, in its place. -/
def kins {α : Type} (k : Nat) (v : α) : KMap α → KMap α
  | [] => [(k, v)]
  | e :: r => if k < e.1 then (k, v) :: e :: r else e :: kins k v r

/-- The table with `v` at key `k`; `d` is what an unlisted `k` reads as, and storing it removes the entry. -/
def kput {α : Type} [DecidableEq α] (d : α) (m : KMap α) (k : Nat) (v : α) : KMap α :=
  if v = d then kdel k m else kins k v (kdel k m)

/-- The canonical form, `d k` being what an unlisted key `k` reads as. -/
abbrev kwf {α : Type} (d : Nat → α) (m : KMap α) : Prop :=
  m.Pairwise (fun a b => a.1 < b.1) ∧ ∀ e ∈ m, e.2 ≠ d e.1

end Sys2Proof.Machine
end

