-- ==== Sys2Proof/Machine/RegMap.lean ====
section
/-! DEFINITION. The native register space (R6, R462 to R465): which block a page holds, the registers of each page with the bits that a write reaches by their access codes (R10, R11), their reset words, and what a written value is stored as. -/

namespace Sys2Proof.Machine

/-- The block types of the page map (R462). -/
inductive Kind where
  | sys | pwr | thm | evt | sec | nvs | mgt | clk | xbar | obs | trc | mem | seq | lat
  | eng | cap | lrx | ltx | lfm | wmk | hrx | htx | hka | hkb | adac | nco | las | bist
  deriving DecidableEq, Repr

/-- The page of instance 0 of a block type (R462), which is also PG_ID.TYPE (R373). -/
def Kind.base : Kind → Nat
  | .sys => 0x000 | .pwr => 0x001 | .thm => 0x002 | .evt => 0x003 | .sec => 0x004 | .nvs => 0x005
  | .mgt => 0x006 | .clk => 0x007 | .xbar => 0x008 | .obs => 0x009 | .trc => 0x00A | .mem => 0x00B
  | .seq => 0x00C | .lat => 0x00D | .eng => 0x010 | .cap => 0x018 | .lrx => 0x020 | .ltx => 0x028
  | .lfm => 0x030 | .wmk => 0x038 | .hrx => 0x040 | .htx => 0x050 | .hka => 0x060 | .hkb => 0x061
  | .adac => 0x062 | .nco => 0x063 | .las => 0x067 | .bist => 0x068

/-- How many instances a block type has (R462). -/
def Kind.count : Kind → Nat
  | .eng => 5 | .cap => 4 | .lrx | .ltx | .lfm | .wmk => 8 | .hrx | .htx => 16 | .nco => 4 | _ => 1

/-- Every block type, in page order. -/
def Kind.all : List Kind :=
  [.sys, .pwr, .thm, .evt, .sec, .nvs, .mgt, .clk, .xbar, .obs, .trc, .mem, .seq, .lat,
   .eng, .cap, .lrx, .ltx, .lfm, .wmk, .hrx, .htx, .hka, .hkb, .adac, .nco, .las, .bist]

/-- The block and the instance that a page number names; none for a page not in the page map (R462). -/
def pageOf (p : Nat) : Option (Kind × Nat) :=
  (Kind.all.find? (fun k => k.base ≤ p && p < k.base + k.count)).map (fun k => (k, p - k.base))

/-- The native address of a page's byte offset (R6). -/
def ra (page off : Nat) : Nat := page * 1024 + off

/-- The page of instance `i` of block `k`. -/
def pg (k : Kind) (i : Nat) : Nat := k.base + i

/-- The distance from a staged register to its twin (R6). -/
def twin : Nat := 0x200

/-- One bound of a stored value: a field written outside `lo` to `hi` stores the nearer end, or 0 where `zero` says so. -/
structure Clamp where
  lsb : Nat
  w : Nat
  lo : Nat
  hi : Nat
  zero : Bool := false
  deriving DecidableEq, Repr

/-- An array of registers of one page: where it lies, the bits of each access code, its reset word and the bounds of its fields. Bits of no mask are read-only, write-1 or reserved; a write of a register does not store them. -/
structure Row where
  off : Nat
  count : Nat := 1
  stride : Nat := 4
  rw : Nat := 0
  rwe : Nat := 0
  rws : Nat := 0
  rst : Nat := 0
  cl : List Clamp := []
  deriving DecidableEq, Repr

/-- The common header of every page (R373); its event words and PG_CTRL have behaviour of their own. -/
def rowsHeader : List Row := [
  { off := 0x000 }, { off := 0x004 }, { off := 0x008, rw := 0x3, rst := 1 }, { off := 0x00C },
  { off := 0x010 }, { off := 0x014 }, { off := 0x018 }, { off := 0x01C }, { off := 0x020 }, { off := 0x024 } ]

/-- SYS (R381, R461). -/
def rowsSys : List Row := [
  { off := 0x040 }, { off := 0x044 }, { off := 0x048 }, { off := 0x04C }, { off := 0x050 },
  { off := 0x054, rw := 0xFFF }, { off := 0x058 },
  { off := 0x060, count := 16, rw := 0x8FFF }, { off := 0x0A0 }, { off := 0x0A4 } ]

/-- PWR (R346). -/
def rowsPwr : List Row := [
  { off := 0x040, rw := 0x7, rst := 0x4 }, { off := 0x044, rw := 0x00FFFF0F }, { off := 0x048, rst := 0x6 },
  { off := 0x04C, rw := 0xFFFF, rst := 0x1F4 },
  { off := 0x050, rw := 0xFFFF, rst := 0x64, cl := [{ lsb := 0, w := 16, lo := 1, hi := 0xFFFF }] },
  { off := 0x054, rw := 0xFFFFFF }, { off := 0x058 },
  { off := 0x05C, rw := 0xFF01, rst := 0x1401, cl := [{ lsb := 8, w := 8, lo := 1, hi := 0xFF }] },
  { off := 0x060, rw := 0x3F, rst := 0x1E, cl := [{ lsb := 0, w := 6, lo := 0, hi := 40 }] }, { off := 0x064, rst := 0x1E },
  { off := 0x068, rw := 0xFFFF0F, rst := 0x141402, cl := [{ lsb := 0, w := 4, lo := 0, hi := 6 }, { lsb := 16, w := 8, lo := 1, hi := 0xFF }] },
  { off := 0x06C, rst := 0x496 }, { off := 0x070 }, { off := 0x074, rst := 0x7FFF },
  { off := 0x078, rw := 0x7F, rst := 0x50, cl := [{ lsb := 4, w := 2, lo := 0, hi := 2 }] },
  { off := 0x080, count := 8, rst := 0x7FFF7FFF } ]

/-- EVT (R403); the STAT and MASK arrays have behaviour of their own. -/
def rowsEvt : List Row := [
  { off := 0x040, rw := 0x7FF, rst := 0x300, cl := [{ lsb := 0, w := 11, lo := 1, hi := 1024 }] },
  { off := 0x044 }, { off := 0x048 }, { off := 0x04C }, { off := 0x050 }, { off := 0x054 }, { off := 0x058 },
  { off := 0x080, count := 16 }, { off := 0x0C0, count := 16 } ]

/-- MGT (R382). -/
def rowsMgt : List Row := [
  { off := 0x040, rw := 0xFF01, rst := 0x100, cl := [{ lsb := 8, w := 8, lo := 1, hi := 128 }] }, { off := 0x044 }, { off := 0x048 } ]

/-- CLK (R173). -/
def rowsClk : List Row := [
  { off := 0x040 }, { off := 0x044 }, { off := 0x048, rw := 0x3, rst := 1 }, { off := 0x050, count := 8, rst := 0x200 } ]

/-- XBAR (R155). -/
def rowsXbar : List Row := [ { off := 0x040, count := 8, rws := 0x7FF }, { off := 0x060 } ]

/-- OBS (R422). -/
def rowsObs : List Row := [
  { off := 0x040 }, { off := 0x044, rw := 0x7FFFF }, { off := 0x048 }, { off := 0x04C },
  { off := 0x050, rw := 0x3FFFF }, { off := 0x054, rw := 0x1FFF, rst := 0x1000, cl := [{ lsb := 0, w := 13, lo := 1, hi := 4096 }] },
  { off := 0x058 }, { off := 0x05C }, { off := 0x060 } ]

/-- TRC (R424). -/
def rowsTrc : List Row := [
  { off := 0x040, rw := 0x7F, cl := [{ lsb := 3, w := 3, lo := 0, hi := 4 }] }, { off := 0x044, count := 8, rw := 0x8003FFFF },
  { off := 0x064, rw := 0xFFFFFF, rst := 0x3E8, cl := [{ lsb := 0, w := 24, lo := 1, hi := 0xFFFFFF }] }, { off := 0x068 } ]

/-- LAT (R174). -/
def rowsLat : List Row := [
  { off := 0x040, rw := 0x1F, rst := 0x9, cl := [{ lsb := 1, w := 4, lo := 0, hi := 10 }] }, { off := 0x044, rw := 0x1F },
  { off := 0x048 }, { off := 0x04C, count := 3 }, { off := 0x058 }, { off := 0x05C },
  { off := 0x060, rw := 0x7, rst := 0x4 }, { off := 0x064 }, { off := 0x068 }, { off := 0x06C } ]

/-- CAPk (R423). -/
def rowsCap : List Row := [
  { off := 0x040 }, { off := 0x044, rw := 0x1FF }, { off := 0x048, rw := 0x1FFFFF, cl := [{ lsb := 8, w := 5, lo := 0, hi := 24 }, { lsb := 13, w := 8, lo := 1, hi := 0xFF }] },
  { off := 0x04C, rw := 0xFFFFFF }, { off := 0x050, rw := 0x3FFFF }, { off := 0x054, rw := 0xFFFF },
  { off := 0x058, count := 2, rw := 0xFFFFFFFF }, { off := 0x060, count := 2, rw := 0xFFFFFFFF },
  { off := 0x080, count := 16, rw := 0x3FFFFF }, { off := 0x0C0 }, { off := 0x0C4 }, { off := 0x0C8 },
  { off := 0x0CC, rw := 0x8003FFFF }, { off := 0x0D0 }, { off := 0x0D4 }, { off := 0x0D8 } ]

/-- The bounds of LOS_CTRL, the same on line and host receivers (R104, R140). -/
def losClamps : List Clamp := [{ lsb := 0, w := 8, lo := 5, hi := 75 }, { lsb := 8, w := 4, lo := 0, hi := 12 }]

/-- LRXn (R107). -/
def rowsLrx : List Row := [
  { off := 0x040, rws := 0x1FF, rst := 0x168 },
  { off := 0x044, rwe := 0x3F3F1F, rst := 0x0C0C, cl := [{ lsb := 0, w := 5, lo := 0, hi := 24 }, { lsb := 8, w := 6, lo := 0, hi := 36 }] },
  { off := 0x048, rw := 0x1F3F, rst := 0x181F },
  { off := 0x04C, rw := 0xFFFF0FFF, rst := 0x00230619, cl := losClamps },
  { off := 0x050, rw := 0xFFFFFF, rst := 0x18C4, cl := [{ lsb := 0, w := 4, lo := 0, hi := 10 }, { lsb := 4, w := 6, lo := 4, hi := 63 }, { lsb := 10, w := 4, lo := 1, hi := 15 }] },
  { off := 0x054, rw := 0xFFFFFFFF, rst := 0x3C1405DC },
  { off := 0x058, rw := 0x3F, rst := 0x33, cl := [{ lsb := 2, w := 3, lo := 0, hi := 4 }] },
  { off := 0x05C, rst := 0x31 }, { off := 0x060 }, { off := 0x064 }, { off := 0x068 }, { off := 0x06C, rst := 0x7F40 },
  { off := 0x070, count := 41, rwe := 0x3FF }, { off := 0x114, count := 5, rwe := 0xFF },
  { off := 0x128, rwe := 0x03FF03FF, rst := 0x03CE036A }, { off := 0x12C, rwe := 0x03FF03FF, rst := 0x00960032 },
  { off := 0x130, rwe := 0x1FF }, { off := 0x134, count := 51 } ]

/-- LTXn (R131). -/
def rowsLtx : List Row := [
  { off := 0x040, rws := 0xFF, rst := 0x10 }, { off := 0x044, rws := 0xFFFFFFFF, rst := 0xFFFF0000 },
  { off := 0x048, rwe := 0x3F, cl := [{ lsb := 0, w := 6, lo := 0, hi := 60 }] }, { off := 0x04C, rwe := 0xF, cl := [{ lsb := 1, w := 3, lo := 0, hi := 4 }] },
  { off := 0x050, rw := 0xFFFF0001, rst := 0x00100000 }, { off := 0x054, count := 7, rwe := 0x3FF },
  { off := 0x070, rw := 0x3FF, rst := 0x200, cl := [{ lsb := 6, w := 3, lo := 0, hi := 4 }] }, { off := 0x074, rw := 0xFF },
  { off := 0x078, rw := 0xFFFC }, { off := 0x07C, rw := 0xFFFFFFFF }, { off := 0x080 } ]

/-- LFMn (R68). -/
def rowsLfm : List Row := [
  { off := 0x040, rws := 0xFFF }, { off := 0x044, rw := 0x7, rst := 0x2, cl := [{ lsb := 0, w := 3, lo := 0, hi := 4 }] },
  { off := 0x048, rst := 0x3 }, { off := 0x04C, rst := 0x180 }, { off := 0x050 } ]

/-- HRXh (R155). -/
def rowsHrx : List Row := [
  { off := 0x040, rws := 0x1FF, rst := 0x34 },
  { off := 0x044, rwe := 0x3F1F, rst := 0x0C08, cl := [{ lsb := 0, w := 5, lo := 0, hi := 20 }, { lsb := 8, w := 6, lo := 0, hi := 36 }] },
  { off := 0x048, rw := 0x1F, rst := 0xF }, { off := 0x04C, rw := 0xFFFF0FFF, rst := 0x00230619, cl := losClamps },
  { off := 0x050, rw := 0xFFFF000F, rst := 0x06400004, cl := [{ lsb := 0, w := 4, lo := 0, hi := 10 }] },
  { off := 0x054, rst := 0x31 }, { off := 0x058 }, { off := 0x05C, rw := 0x3F, rst := 0x33, cl := [{ lsb := 2, w := 3, lo := 0, hi := 4 }] },
  { off := 0x060 }, { off := 0x064, rst := 0x100 }, { off := 0x070, count := 24, rwe := 0x3FF },
  { off := 0x0D0, rwe := 0xFF }, { off := 0x0D4, rwe := 0x03FF03FF, rst := 0x03CE036A },
  { off := 0x0D8, rwe := 0x03FF03FF, rst := 0x00960032 }, { off := 0x0DC, count := 29 } ]

/-- HTXh (R155). -/
def rowsHtx : List Row := [
  { off := 0x040, rws := 0x1F, rst := 0x8 }, { off := 0x044, rwe := 0x1F, rst := 0x10, cl := [{ lsb := 0, w := 5, lo := 0, hi := 24 }] },
  { off := 0x048, rw := 0x3, rst := 1 }, { off := 0x04C, rst := 0xC0 }, { off := 0x050, count := 6, rwe := 0xFF } ]

/-- SEQ (R208). -/
def rowsSeq : List Row := [
  { off := 0x040, rw := 0xFFFF0001, rst := 0x03E80001 }, { off := 0x044 }, { off := 0x048 }, { off := 0x04C }, { off := 0x050 },
  { off := 0x054, rw := 0xFF }, { off := 0x058 }, { off := 0x060, count := 16, rw := 0xFFFFFF },
  { off := 0x100, count := 64, rw := 0x1FFF7FFF, rst := 0x02000000, cl := [{ lsb := 25, w := 2, lo := 0, hi := 2 }] } ]

/-- ENGk (R207). -/
def rowsEng : List Row := [
  { off := 0x040, rw := 0x1, rst := 1 }, { off := 0x044 }, { off := 0x048 }, { off := 0x04C, rw := 0x7FFF, rst := 0x4000 },
  { off := 0x050, rw := 0xFFFFFF } ]

/-- MEM (R319). -/
def rowsMem : List Row := [
  { off := 0x040, rw := 0x3, rst := 2 }, { off := 0x044, rw := 0xFF, rst := 0x10 },
  { off := 0x048, rw := 0xFFFF, rst := 0x400, cl := [{ lsb := 0, w := 16, lo := 1, hi := 0xFFFF }] }, { off := 0x04C, count := 7 },
  { off := 0x068, rw := 0xFFFF }, { off := 0x070, count := 8 }, { off := 0x090 }, { off := 0x094 }, { off := 0x098 },
  { off := 0x09C, rw := 0xFF, cl := [{ lsb := 0, w := 8, lo := 0, hi := 175 }] }, { off := 0x0A0 }, { off := 0x0A4, rst := 0x400 }, { off := 0x0A8 } ]

/-- THM (R360). -/
def rowsThm : List Row := [
  { off := 0x040, rst := 0x4 }, { off := 0x044, rst := 0x000F0000 }, { off := 0x048, count := 12 },
  { off := 0x080, count := 6, rw := 0x1FF, rst := 0x18, cl := [{ lsb := 2, w := 4, lo := 6, hi := 15 }] },
  { off := 0x0A0, count := 6, rw := 0xFFFFFFFF, rst := 0x0D6B8000 }, { off := 0x0B8, rw := 0x3F3F, rst := 0x3F },
  { off := 0x0C0, count := 6, rw := 0xFFFF, rst := 0x007DD864 }, { off := 0x0D8, count := 6, rw := 0xFFFFFF, rst := 0x007DD864 },
  { off := 0x0F0, rst := 0xF } ]

/-- SEC (R446). -/
def rowsSec : List Row := [
  { off := 0x040 }, { off := 0x044 }, { off := 0x048 }, { off := 0x04C }, { off := 0x050 }, { off := 0x054 },
  { off := 0x058, rw := 0x1FFFFC }, { off := 0x05C }, { off := 0x060, count := 8, rw := 0xFFFFFFFF },
  { off := 0x080, rw := 0x3FC }, { off := 0x084 }, { off := 0x088, rw := 0x3FC }, { off := 0x08C }, { off := 0x090 },
  { off := 0x0A0, count := 16, rw := 0xFFFFFFFF } ]

/-- NVS (R447). -/
def rowsNvs : List Row := [
  { off := 0x040 }, { off := 0x044 }, { off := 0x048, rw := 0xFFFFFF },
  { off := 0x04C, rw := 0xFFF, rst := 1, cl := [{ lsb := 0, w := 12, lo := 1, hi := 4095 }] },
  { off := 0x050 }, { off := 0x054 }, { off := 0x058, rw := 0x7FC }, { off := 0x05C },
  { off := 0x060, count := 4, rw := 0x81FF },
  { off := 0x070, rw := 0xFFFF, rst := 0x3C, cl := [{ lsb := 0, w := 16, lo := 1, hi := 65535 }] }, { off := 0x074 } ]

/-- WMKn (R295). -/
def rowsWmk : List Row := [
  { off := 0x040, rw := 0xFC0, rwe := 0x3F, rst := 0x250, cl := [{ lsb := 1, w := 5, lo := 4, hi := 16 }] },
  { off := 0x044, rw := 0x7, rst := 3, cl := [{ lsb := 0, w := 3, lo := 0, hi := 6 }] },
  { off := 0x048, rw := 0xFFFF, rst := 0x0A0A, cl := [{ lsb := 0, w := 8, lo := 1, hi := 255 }, { lsb := 8, w := 8, lo := 1, hi := 255 }] },
  { off := 0x04C }, { off := 0x050, rw := 0xFFF }, { off := 0x054 }, { off := 0x058, rw := 0xFC }, { off := 0x05C },
  { off := 0x060 }, { off := 0x064 }, { off := 0x068, rw := 0xFC }, { off := 0x06C }, { off := 0x070 }, { off := 0x074 },
  { off := 0x078, count := 3 }, { off := 0x084 },
  { off := 0x090, rw := 0x7FFF, rst := 0x3CC0 },
  { off := 0x094, rw := 0xFF, rst := 0xC0, cl := [{ lsb := 0, w := 8, lo := 64, hi := 255 }] },
  { off := 0x098, rw := 0x3 }, { off := 0x09C }, { off := 0x0A0, rw := 0xFFF, rst := 0x664 } ]

/-- The bounds of a sequence entry and of REQ_CFG (R258): a reference above 4 is stored as 0. -/
def hkClamps : List Clamp := [{ lsb := 10, w := 3, lo := 0, hi := 4, zero := true }]

/-- The rows that HKA and HKB share from REQ_CFG on (R258, R273). -/
def rowsHkTail : List Row := [
  { off := 0x084, rw := 0xFFFFFFFF, rst := 0x7F, cl := hkClamps }, { off := 0x088 }, { off := 0x08C },
  { off := 0x090, count := 80 }, { off := 0x1D0, count := 5 },
  { off := 0x1E4, rw := 0x7FE }, { off := 0x1E8, rw := 0x1FFFF }, { off := 0x1EC, rw := 0x7F, rst := 0x40 },
  { off := 0x1F0 }, { off := 0x1F4 } ]

/-- HKA (R258, R273). -/
def rowsHka : List Row :=
  [{ off := 0x040, count := 16, rw := 0xFFFFFFFF, rst := 0x7F, cl := hkClamps }, { off := 0x080, rw := 0xFFFF1F, rst := 0x10 }] ++ rowsHkTail

/-- HKB: entries 0 to 5 are fixed, LAST is at least 5 and PERIOD reads 100 (R246, R258, R273). -/
def rowsHkb : List Row :=
  [{ off := 0x040, count := 6 }, { off := 0x058, count := 10, rw := 0xFFFFFFFF, rst := 0x7F, cl := hkClamps },
   { off := 0x080, rw := 0x1F, rst := 0x6415, cl := [{ lsb := 0, w := 4, lo := 5, hi := 15 }] }] ++ rowsHkTail

/-- The bounds of AV_NCO_LO and AV_NCO_HI: a source above 4 is stored as 0 (R255). -/
def avNcoClamps : List Clamp :=
  [0, 3, 6, 9, 12, 15, 18, 21].map (fun i => { lsb := i, w := 3, lo := 0, hi := 4, zero := true })

/-- ADAC (R255). -/
def rowsAdac : List Row := [
  { off := 0x040, count := 8, rw := 0xFFFF }, { off := 0x060, count := 16, rw := 0xFFFF }, { off := 0x0A0, rw := 0xFFFF },
  { off := 0x0A4, rw := 0xFFFFFFFF }, { off := 0x0A8, count := 2, rw := 0xFFFFFF, cl := avNcoClamps },
  { off := 0x0B0 }, { off := 0x0B4, rw := 0xF1 }, { off := 0x0B8 },
  { off := 0x100, count := 2, stride := 0x20, rw := 0x7, cl := [{ lsb := 1, w := 2, lo := 0, hi := 2 }] },
  { off := 0x104, count := 2, stride := 0x20, rw := 0x1FFF }, { off := 0x108, count := 2, stride := 0x20, rw := 0xFFFFFFFF },
  { off := 0x10C, count := 2, stride := 0x20 }, { off := 0x110, count := 2, stride := 0x20 } ]

/-- NCOk (R256). -/
def rowsNco : List Row := [
  { off := 0x040, rw := 0x5 }, { off := 0x044, rw := 0xFFFFFFFF, rst := 0x00080000, cl := [{ lsb := 0, w := 32, lo := 209716, hi := 10485760 }] }, { off := 0x048, rw := 0xFFFF },
  { off := 0x04C, rw := 0xFFFFFFFF }, { off := 0x050, rw := 0x3FF }, { off := 0x054 }, { off := 0x058 } ]

/-- LAS (R257). -/
def rowsLas : List Row := [
  { off := 0x040, count := 8, rw := 0x3FF8D, rwe := 0x70, rst := 0x1FF80, cl := [{ lsb := 4, w := 3, lo := 0, hi := 4 }, { lsb := 9, w := 8, lo := 1, hi := 255 }] },
  { off := 0x060, count := 8, rw := 0xFFFF }, { off := 0x080, count := 8, rw := 0xFFFFFFFF, rst := 0x80007FFF },
  { off := 0x0A0, count := 8 },
  { off := 0x0C0, rw := 0xFFFFFF, rst := 0x00FF3232, cl := [{ lsb := 0, w := 8, lo := 1, hi := 255 }, { lsb := 8, w := 8, lo := 10, hi := 255 }] },
  { off := 0x0C4, rw := 0x3F, cl := [{ lsb := 3, w := 3, lo := 0, hi := 4 }] }, { off := 0x0C8 }, { off := 0x0CC } ]

/-- BIST (R226). -/
def rowsBist : List Row := [
  { off := 0x040, count := 8, stride := 0x20, rw := 0xF, rst := 5, cl := [{ lsb := 1, w := 3, lo := 0, hi := 6 }] },
  { off := 0x044, count := 8, stride := 0x20 }, { off := 0x048, count := 8, stride := 0x20 },
  { off := 0x04C, count := 8, stride := 0x20 }, { off := 0x050, count := 8, stride := 0x20, rw := 0x3FFFFFFF },
  { off := 0x054, count := 8, stride := 0x20 },
  { off := 0x058, count := 8, stride := 0x20, rw := 0x7F, cl := [{ lsb := 0, w := 7, lo := 0, hi := 64 }] },
  { off := 0x05C, count := 8, stride := 0x20 },
  { off := 0x140, rw := 0x3FFFFF, rst := 0x00080A64, cl := [{ lsb := 0, w := 8, lo := 1, hi := 255 }, { lsb := 8, w := 8, lo := 1, hi := 255 }, { lsb := 16, w := 6, lo := 1, hi := 63 }] },
  { off := 0x144, rw := 0xFFFFFFFF, rst := 0x0A280898 }, { off := 0x148, rw := 0x1 }, { off := 0x14C }, { off := 0x150 },
  { off := 0x154, rw := 0xFFF }, { off := 0x158 } ]

/-- The register rows of a block's page beside the header (R463). -/
def rowsOf : Kind → List Row
  | .sys => rowsSys | .pwr => rowsPwr | .thm => rowsThm | .evt => rowsEvt | .sec => rowsSec | .nvs => rowsNvs
  | .mgt => rowsMgt | .clk => rowsClk | .xbar => rowsXbar | .obs => rowsObs | .trc => rowsTrc | .mem => rowsMem
  | .seq => rowsSeq | .lat => rowsLat | .eng => rowsEng | .cap => rowsCap | .lrx => rowsLrx | .ltx => rowsLtx
  | .lfm => rowsLfm | .wmk => rowsWmk | .hrx => rowsHrx | .htx => rowsHtx | .hka => rowsHka | .hkb => rowsHkb
  | .adac => rowsAdac | .nco => rowsNco | .las => rowsLas | .bist => rowsBist

/-- Whether an offset is an element of a row's array. -/
def Row.has (r : Row) (o : Nat) : Bool :=
  r.off ≤ o && (o - r.off) % r.stride == 0 && (o - r.off) / r.stride < r.count

/-- The row of a page that holds a live offset, with the element's index; none at a reserved offset (R11, R463). -/
def rowAt (k : Kind) (o : Nat) : Option (Row × Nat) :=
  ((if o < 0x40 then rowsHeader else rowsOf k).find? (fun r => r.has o)).map (fun r => (r, (o - r.off) / r.stride))

/-- Reset words that depend on the instance or on the element (R464). -/
def resetSpecial (k : Kind) (i off idx : Nat) : Option Nat :=
  if off = 0 then some (k.base * 65536 + i * 256 + 1)
  else match k with
  | .sys => if off = 0x040 then some (Config.devGrade.toNat * 65536 + 0x3208) else none
  | .xbar => if 0x040 ≤ off ∧ off < 0x060 then some (0x10 + 0x22 * idx) else none
  | .lrx => if off = 0x090 then some 0x100 else none
  | .ltx => if off = 0x05C then some 0x150 else none
  | .hrx => if off = 0x080 then some 0x100 else none
  | .htx => if off = 0x058 then some 0x40 else none
  | .lfm => if off = 0x040 then some (0x120 * i) else none
  | .hkb => if 0x040 ≤ off ∧ off < 0x058 then some (0x003001E0 + idx) else none
  | _ => none

/-- The live offset that a page offset stands for, and whether the offset is a twin's (R6, R463). -/
def liveOff (off : Nat) : Nat × Bool := if 0x240 ≤ off then (off - twin, true) else (off, false)

/-- The reset word of a register or twin; 0 at an address that holds none (R11, R464, R465). -/
def resetWord (a : Nat) : Word :=
  match pageOf (a / 1024) with
  | none => 0
  | some (k, i) =>
    let (o, tw) := liveOff (a % 1024)
    match rowAt k o with
    | none => 0
    | some (r, idx) =>
      if tw && r.rws == 0 then 0
      else BitVec.ofNat 32 ((resetSpecial k i o idx).getD r.rst)

/-- A value with one field held to its bounds. -/
def Clamp.apply (c : Clamp) (v : Nat) : Nat :=
  let f := (v >>> c.lsb) % 2 ^ c.w
  let g := if c.zero && c.hi < f then 0 else if f < c.lo then c.lo else if c.hi < f then c.hi else f
  v - f * 2 ^ c.lsb + g * 2 ^ c.lsb

/-- What a register of a row holds after a write: the written bits the mask names, held to the row's bounds, over the old word (R10, R11). -/
def Row.store (r : Row) (mask old v : Nat) : Nat :=
  r.cl.foldl (fun x c => c.apply x) ((old &&& (0xFFFFFFFF ^^^ mask)) ||| (v &&& mask))

end Sys2Proof.Machine
end

