-- ==== Sys2Proof/Machine/State.lean ====
section
/-! DEFINITION. The state of the BX3208 as plain data: every register in one table, the memories, and what each block holds beside its registers; the queue of waiting commands; the reasons a step can stop; and the state after reset. -/

namespace Sys2Proof.Machine

/-- The detector of one line receiver between two symbols (R84, R86, R89): the path metrics of the lead section and of the main section, the survivors with the newest decision first, and the histories that the FFE and the tail DFE look back on. -/
structure Det where
  leadM : List Nat := [0, 0, 0, 0]
  leadS : List (List Nat) := [[], [], [], []]
  mainM : List Nat := []
  mainS : List (List Nat) := []
  xHist : List Int := []
  tent : List Nat := []
  /-- The last final decision, L_(k−1) of the next symbol (R95). -/
  last : Nat := 0
  deriving DecidableEq, Repr

/-- A quality window that has ended: its length W, the sum of e_k² in 1/65,536 square FFE unit, disagreements, suspect events, and the uncorrectable codewords that the monitor found in it (R99, R100, R103). -/
structure QualWin where
  w : Nat
  sumSq : Nat
  disagree : Nat
  suspects : Nat
  uncorr : Nat
  deriving DecidableEq, Repr

/-- What a receiver counts over its samples and symbols, and what has come to its end and waits to be published: clip and signal-detect blocks, the accumulating gradient set, the quality window (R75, R95, R99, R100, R104, R138, R139). -/
structure FigSt where
  /-- Samples of the clip block under way, its clipped samples, and the counts of blocks ended. -/
  clipN : Nat := 0
  clipSum : Nat := 0
  clipDone : List Nat := []
  /-- Samples of the signal-detect block under way, the sum of their magnitudes, and the consecutive blocks ended below the assert level and above the deassert level. -/
  losN : Nat := 0
  losSum : Nat := 0
  below : Nat := 0
  above : Nat := 0
  /-- The accumulating gradient set: its sums, whether one saturated, its participating symbols; the sets that are complete. -/
  gradSum : List Int := []
  gradHit : Bool := false
  gradN : Nat := 0
  gradDone : List (List Int × Bool) := []
  /-- The quality window under way, and the run of disagreement of its re-encoded symbols. -/
  winN : Nat := 0
  sumSq : Nat := 0
  disagree : Nat := 0
  suspects : Nat := 0
  uncorr : Nat := 0
  run : Nat := 0
  winDone : List QualWin := []
  deriving DecidableEq, Repr

/-- The outer-code monitor of a line lane: the MON_FMT it works by, whether markers have been found, whether every symbol of a codeword arrives on this lane, and the host bits seen since (R102). -/
structure MonSt where
  fmt : Nat := 0
  found : Bool := false
  whole : Bool := false
  bits : List Bool := []
  deriving DecidableEq, Repr

/-- One line lane: what its framer, transmitter and receiver hold beside their registers. -/
structure LaneSt where
  /-- The lane has been restarted and runs, parked or not (R91, R148). -/
  run : Bool := false
  /-- MFC of the next frame sent (R43). -/
  mfc : Nat := 0
  /-- Encoder state (R53). -/
  enc : Nat := 0
  /-- Justification buffer of host lane A's bits, oldest first (R56). -/
  bufA : List Bool := []
  /-- Justification buffer of host lane B's bits, oldest first (R51, R56). -/
  bufB : List Bool := []
  /-- The fill left 0 to 768 since the last frame boundary, so that the next frame is sent empty (R57). -/
  excursion : Bool := false
  /-- The tail of the last frame sent was substituted (R22, R43). -/
  subPrev : Bool := false
  /-- The first late token of the transmit frame under way (R22). -/
  lateTx : Option Nat := none
  /-- The first late token of the receive frame under way (R22). -/
  lateRx : Option Nat := none
  /-- The number of the next timing frame since the restart, which sets its length in STD200 (R40). -/
  frameNo : Nat := 0
  /-- The levels sent last, newest first: the symbol history of R111 and R112. -/
  hist : List (Option Nat) := []
  /-- The levels of the last frame sent. -/
  txLevels : List Nat := []
  /-- The DAC codes of the last frame sent (R114, R115). -/
  txDac : List Int := []
  /-- Symbols sent from the PRBS or waveform source since it took force (R128, R129). -/
  srcPos : Nat := 0
  /-- Symbols of PRBS31Q sent as parked output (R64, R130). -/
  parkPos : Nat := 0
  /-- A waveform fetch has raised its event since the last press (R127). -/
  wavUe : Bool := false
  /-- The state of the IEEE 802.3dj transmit coder (R66). -/
  stdTx : Nat := 0
  /-- The state of the IEEE 802.3dj receive decoder (R66). -/
  stdRx : Nat := 0
  /-- Commas found at the expected spacing in PRESYNC, and whether the comma of the next frame received is the one that HUNT found (R60). -/
  preCnt : Nat := 0
  found : Bool := false
  /-- Consecutive headers that failed their CRC (R62). -/
  hdrFails : Nat := 0
  /-- HDR_BAD has been raised for the run of failures under way (R62). -/
  hdrBad : Bool := false
  /-- MFC of the previous received frame, counting failed headers (R63). -/
  rxMfc : Option Nat := none
  /-- The detectors (R84 to R90). -/
  det : Det := {}
  /-- The 51 sums of the last published gradient set (R96). -/
  gradPub : List Int := []
  /-- GRAD_STAT has not been read since the last publication (R96, R97). -/
  gradNew : Bool := false
  /-- The publications so far and whether the last saturated, as GRAD_STAT will report them at its next read (R97). -/
  gradSeq : Nat := 0
  gradSat : Bool := false
  /-- The number of the next received timing frame (R40), and the index k of the next sample modulo 1,024, which sets its working position and its part in gradients (R74, R95). -/
  rxNo : Nat := 0
  adcPos : Nat := 0
  /-- The main clip block exceeded the threshold (R75). -/
  clipPrev : Bool := false
  /-- Slice that fills each working position P0 to P63 (R74). -/
  slices : List Nat := List.range 64
  /-- An epoch strobe waits for the transmit and for the receive boundary (R378, R92). -/
  epochTx : Bool := false
  epochRx : Bool := false
  /-- The transmit clock source has been good for 1 ms since the restart; the receive clock source likewise (R160). -/
  goodTx : Bool := false
  goodRx : Bool := false
  /-- The transmit, and the receive, derived clock is in holdover (R160). -/
  holdTx : Bool := false
  holdRx : Bool := false
  /-- The slew to the source runs or has ended, and the realignment waits for the frame boundary (R160, R161): 0 none, 1 first good, 2 realignment. -/
  slewTx : Nat := 0
  slewRx : Nat := 0
  /-- The next transmit, and receive, frame is released as a substitute of R161. -/
  realignTx : Bool := false
  realignRx : Bool := false
  /-- The receiver has taken a first received frame boundary since the restart (R484). -/
  rxFirst : Bool := false
  /-- The buffer ahead of the host transmitters, the slip buffer or the desynchroniser, has left its range: 1 above, 2 below (R158, R163). -/
  elastic : Nat := 0
  /-- Deskew buffer of host lane B's bits, oldest first, and whether its fill has left its range: 1 above, 2 below (R151). -/
  skew : List (Option Bool) := []
  skewLeft : Nat := 0
  /-- The counts of blocks, gradient sets and quality windows, and the outer-code monitor. -/
  fig : FigSt := {}
  mon : MonSt := {}
  /-- The output mode being enabled under R120: the mode that a press is switching to. -/
  modeSwitch : Option Nat := none
  /-- An output mode has been named by a press since power-on (R121). -/
  modeNamed : Bool := false
  /-- A nonlinear bank copy runs for these sets (R124), one bit per band. -/
  nlCopy : Nat := 0
  /-- Live banks of the five nonlinear sets: bit b is the bank, 0 or 1, that is live (R124). -/
  nlBank : Nat := 0
  /-- The output is held as in OFF by a calibration or test step (R121). -/
  outHold : Bool := false
  /-- The symbol rate that the last foreground calibration was begun at; 0 where none has been since D_LANE was powered (R219). -/
  calRate : Nat := 0
  /-- The pages that a press which changes the lane's map holds parked until it completes (R148). -/
  mapParked : List Nat := []
  /-- What ended the lane's dusk: the DETAIL code of event 34 (R347). -/
  wakeCause : Nat := 0
  deriving DecidableEq, Repr

/-- One host lane: what its receiver and transmitter hold beside their registers. -/
structure HostSt where
  /-- Position of the HRX's substitute generator (R152). -/
  rxGen : Nat := 0
  /-- Position of the HTX's substitute generator (R152). -/
  txGen : Nat := 0
  /-- Symbols of the pattern of HTX_MODE.SRC sent (R144). -/
  patPos : Nat := 0
  /-- Symbols of PRBS31Q sent as parked-path output (R153). -/
  parkPos : Nat := 0
  /-- The host bits delivered in the last frame (R18, R154). -/
  out : List Bool := []
  /-- The levels sent last, newest first (R142). -/
  hist : List Nat := []
  /-- The drive s_k of the last frame's symbols, in 1/128 (R142). -/
  drive : List Int := []
  gradPub : List Int := []
  gradNew : Bool := false
  gradSeq : Nat := 0
  gradSat : Bool := false
  /-- Host bits on their way to the HTX, oldest first, none where the substitute goes out: this host lane's part of the slip buffer or the desynchroniser (R158, R163). -/
  buf : List (Option Bool) := []
  /-- Samples that the FFE of the receiver looks back on, newest first, and its last decision (R136, R137). -/
  rxHist : List Int := []
  rxLast : Nat := 0
  /-- The index of the next symbol modulo 1,024 (R95, R138). -/
  rxNo : Nat := 0
  /-- What the receiver counts (R138 to R140). -/
  fig : FigSt := {}
  /-- The pattern checker: the place in the pattern of the next symbol while it is locked, the newest decisions while it is not, and the symbols and errors of the block under way (R141). -/
  chkPos : Option Nat := none
  chkSeen : List Nat := []
  chkN : Nat := 0
  chkErr : Nat := 0
  deriving DecidableEq, Repr

/-- A press that has passed validation and waits for its boundaries (R375, R485). -/
structure PressRun where
  /-- Started by SYS.PRESS_GO (R376). -/
  group : Bool
  /-- The pages pressed. -/
  pages : List Nat
  /-- The boundaries still to come: line lane, whether the receive boundary, and the pages that apply there. -/
  left : List (Nat × Bool × List Nat)
  /-- The lanes whose map the press changes (R148). -/
  maps : List Nat
  /-- The lanes whose output mode is being switched (R120). -/
  modes : List Nat
  /-- The lanes that have applied and that restart when the press completes (R33, R375; log entry 20). -/
  hold : List Nat := []
  /-- The host lanes whose CMIS configuration status the press settles (R369). -/
  cfg : List Nat := []
  deriving DecidableEq, Repr

/-- A queued log request (R386, R387): the event, its DETAIL, the number of its occurrence, the occurrences whose entries come first (R397, R398), and for the end of a press the pages pressed, whose later events follow it (R398). -/
structure EvReq where
  ev : Nat
  detail : Nat
  id : Nat
  after : List Nat
  pages : List Nat := []
  deriving DecidableEq, Repr

/-- The event logic (R385 to R395). -/
structure EvtSt where
  stat : BitVec 512 := 0
  mask : BitVec 512
  /-- Queued log requests, oldest first, at most two of one source (R387). -/
  queue : List EvReq := []
  /-- Occurrences so far. -/
  occ : Nat := 0
  /-- Index of the oldest unread entry in the ring of EVTM, and the number of unread entries (R391). -/
  head : Nat := 0
  unread : Nat := 0
  /-- The SEQ that the next entry carries (R390). -/
  seq : Nat := 0
  /-- Requests lost since the previous EVT_LOSS entry (R393). -/
  lossSince : Nat := 0
  /-- Event 4 may be raised: the count has fallen below HIGH_THR − 64 since it last was (R395). -/
  highArmed : Bool := true
  /-- The ring index that the last LOG_LO read found, and the entry as snapshotted (R391). -/
  snap : Option Nat := none
  /-- Entries already counted as found uncorrectable (R312), ring indices. -/
  bad : List Nat := []
  deriving DecidableEq, Repr

/-- Power, domains and pace (R31 to R33, R321 to R344). -/
structure PwrSt where
  /-- Power-on reset is asserted (R449). -/
  por : Bool := true
  /-- D_HK, and the shared control subdomain of D_CORE, are on (R31, R323). -/
  hkOn : Bool := false
  coreOn : Bool := false
  /-- D_LANEn is on, bit n; D_HOSTk is on, bit k (R31 to R33). -/
  laneOn : BitVec 8 := 0
  hostOn : BitVec 4 := 0
  /-- Lane n's subdomain of D_CORE, and with it all of D_LANEn, is on, bit n (R31, R32, R322, R325). -/
  subOn : BitVec 8 := 0
  /-- Pages marked UNUSABLE (R77, R220 to R222, R322). -/
  unusable : List Nat := []
  /-- Domains whose power-good has failed, by the numbers of event 40 (R322). -/
  faults : List Nat := []
  /-- Domains waiting for power-good (R322). -/
  waitGood : List Nat := []
  /-- What caused the entry to low power: 1 pin, 2 LP_REQ, 3 idle (R327, R347). -/
  lpCause : Nat := 0
  /-- The wake source that occurred during the entry, code and lane (R328). -/
  wakePend : Option (Nat × Nat) := none
  /-- Lanes kept for signal detect in low power (R32). -/
  sdKept : BitVec 8 := 0
  /-- D_CORE is held by thermal shutdown or has failed to start (R357, R450). -/
  coreHeld : Bool := false
  /-- Capabilities in tokens per second from the last completed full window: each lane's, and the replica's (R334, R335). -/
  cLane : KMap Nat := []
  cRep : Nat := 0
  /-- A pace-low episode is under way, and it has raised VCORE_LIMIT (R337). -/
  episode : Bool := false
  limited : Bool := false
  /-- Failed attempts of the AVSBus write under way (R344). -/
  avsFails : Nat := 0
  /-- A whole write to this code is under way (R343). -/
  avsWhole : Option Nat := none
  /-- The retention records: for each sealed macro its CRC-32 and its 16 saved bytes (R331). -/
  retn : List (Nat × Nat × List Byte) := []
  deriving DecidableEq, Repr

/-- The device time counter, PPS and the latency meter (R168 to R171). -/
structure TimeSt where
  /-- DTC: 48-bit cycles above a 16-bit fraction (R170). -/
  dtc : BitVec 64 := 0
  /-- DTC at the last PPS edge (R171). -/
  ppsTs : BitVec 64 := 0
  ppsSeen : Bool := false
  /-- Consecutive edges at 0.5 s to 1.5 s spacing since PPS_OK last cleared, at most 2 (R171). -/
  ppsGood : Nat := 0
  /-- The measurements of the window in progress, in fs, newest first; whether it is spoilt, and whether the lane ran free (R169). -/
  latWin : List Nat := []
  latBad : Bool := false
  latFree : Bool := false
  /-- The last publication: mean, minimum, maximum, valid, free (R169). -/
  latPub : Nat × Nat × Nat × Bool × Bool := (0, 0, 0, false, false)
  latNew : Bool := false
  latSeq : Nat := 0
  deriving DecidableEq, Repr

/-- The star map's own state beside the counters in OBSM (R405 to R412). -/
structure ObsSt where
  invalid : List Nat := []
  restarted : List Nat := []
  /-- Event 481 has been raised since boot, for these points (R406). -/
  satSeen : List Nat := []
  /-- Size of the last accepted snapshot (R412), and the DTC at its instant (R410). -/
  snapCnt : Nat := 0
  snapTs : BitVec 64 := 0
  deriving DecidableEq, Repr

/-- One capture unit (R413 to R419). -/
structure CapSt where
  /-- Samples of the source since ARM (R415). -/
  pos : Nat := 0
  /-- Samples until the next RAW sample is stored, D as a power-of-two multiple of DEC_M1 + 1, and a doubling waiting for the record boundary (R414, R418). -/
  rawWait : Nat := 0
  rate : Nat := 0
  rateWait : Bool := false
  /-- Samples held for the RAW record in progress, oldest first. -/
  raw : List Nat := []
  /-- MMM block in progress: count, minimum, maximum, sum. -/
  mmmN : Nat := 0
  mmmMin : Int := 0
  mmmMax : Int := 0
  mmmSum : Int := 0
  /-- Samples of the histogram period in progress. -/
  histN : Nat := 0
  /-- The run of disagreements in progress: length and the position of its first symbol (R414). -/
  run : Nat := 0
  runAt : Nat := 0
  cnt0 : Nat := 0
  cnt1 : Nat := 0
  /-- The constellation timers: running or expired (R416): 0 idle, 1 running, 2 expired. -/
  tmr0 : Nat := 0
  tmr1 : Nat := 0
  triggered : Bool := false
  /-- Records still to be stored after the trigger (R417), and the records buffered ahead of the TRIG record. -/
  post : Nat := 0
  trigIn : Option Nat := none
  /-- The ARM pair has been made (R415). -/
  started : Bool := false
  /-- Records made and not yet stored, oldest first, at most 256 (R418). -/
  buf : List (BitVec 64) := []
  /-- Records dropped that no MARK has reported yet (R418). -/
  dropped : Nat := 0
  /-- The source delivers samples (R413). -/
  live : Bool := true
  /-- Samples of the source that no tick has taken yet, oldest first (R413, R416). -/
  feed : List CapSample := []
  deriving DecidableEq, Repr

/-- The trace port: the queued packets of each class with the packets lost and not yet reported, and the last packet sent (R420, R421). -/
structure TrcSt where
  evq : List (BitVec 64) := []
  stq : List (BitVec 64) := []
  ptq : List (BitVec 104) := []
  lossq : List (Nat × Nat) := []
  lost2 : Nat := 0
  lost3 : Nat := 0
  /-- TYPE and payload bytes of the last packet sent. -/
  last : List Nat := []
  deriving DecidableEq, Repr

/-- An address generator (R176). -/
structure AddrGen where
  ptr : BitVec 13 := 0
  base : BitVec 13 := 0
  len : BitVec 13 := 0
  md : BitVec 13 := 1
  deriving DecidableEq, Repr

/-- What a run does between steps (R193, R194). -/
inductive EngPhase where
  | idle
  | running
  | waiting (src : Nat)
  | loading (data : Word)
  | stFull
  deriving DecidableEq, Repr

/-- One engine (R176); X and Y lie in ENGM. -/
structure EngSt where
  acc0 : BitVec 56 := 0
  acc1 : BitVec 56 := 0
  t : Vector (BitVec 24) 8 := Vector.replicate 8 0
  ag : Vector AddrGen 8 := Vector.replicate 8 {}
  /-- [0] Z, [1] N, [2] V, [3] S, [4] C. -/
  flg : BitVec 5 := 0
  pc : Nat := 0
  sheet : Nat := 0
  inst : Nat := 0
  steps : Nat := 0
  phase : EngPhase := .idle
  /-- The binding whose request started the run (R200). -/
  bind : Nat := 0
  prio : Nat := 1
  /-- Posted writes not yet accepted by their pages, oldest first, at most 8 (R193). -/
  wq : List (Nat × Word) := []
  /-- Event-raising SIG steps executed by the run, and how many first ones are not logged again (R199). -/
  sigs : Nat := 0
  skip : Nat := 0
  deriving DecidableEq, Repr

/-- A queued request (R200 to R202). -/
structure SeqReq where
  bind : Nat
  sheet : Nat
  inst : Nat
  prio : Nat
  sys : Bool
  /-- Event-raising SIG steps that the restarted run does not log again (R199). -/
  skip : Nat := 0
  /-- The engine and the step of the run that a reload suspended (R199). -/
  eng : Nat := 7
  step : Nat := 0
  deriving DecidableEq, Repr

/-- The scheduler (R200 to R205). -/
structure SeqSt where
  /-- Queued requests, oldest first. -/
  queue : List SeqReq := []
  /-- Enabled bindings triggered by an event that counting or another firing raised: they fire next, oldest first (R200; log entry 7). -/
  fired : List Nat := []
  /-- The 1.024 ms of the pool's occupancy under way: its cycles, and the usable engines and the busy ones summed over them (R205). -/
  occN : Nat := 0
  occPool : Nat := 0
  occBusy : Nat := 0
  /-- A drain is under way (R204): 0 none, 1 low-power entry, 2 Ream activation. -/
  drain : Nat := 0
  /-- Frame boundaries of each lane since its restart (R200). -/
  bounds : KMap Nat := []
  /-- Directory entries, by sheet (R196), as DIR_DATA lays them out. -/
  dir : KMap Word := []
  /-- Sheets whose reload is queued or running, with the runs it has suspended (R199, R313). -/
  reload : List (Nat × List SeqReq) := []
  deriving DecidableEq, Repr

/-- Calibration of one line lane (R210 to R218). -/
structure CalSt where
  /-- Correction word of each slice, laid out as CAL_PEND (R210). -/
  corr : KMap Nat := []
  /-- The physical slice out of the stream (R74). -/
  out : Nat := 64
  /-- The slice retired under R77. -/
  retired : Option Nat := none
  /-- The out slice's correction when its last ESTIMATE began (R212). -/
  begun : Nat := 0
  /-- A publication that no read of CAL_STAT has reported (R214). -/
  fresh : Bool := false
  /-- Swaps left at the fast interval (R217), and the reference temperature in 1/16 °C. -/
  fastLeft : Nat := 0
  tRef : Option Int := none
  /-- Swaps made since activation in the round of 65, and the RQF of the last swap (R218). -/
  round : Nat := 0
  rqfLast : Nat := 0
  /-- The lowest RQF verified since the last swap of the round before (R218). -/
  roundLow : Nat := 6000
  /-- Foreground calibration runs, and the device cycle at which it began (R219). -/
  fg : Bool := false
  fgAt : Nat := 0
  deriving DecidableEq, Repr

/-- The in-service test under way (R223 to R225), with what its step 1 saved. -/
structure IstSt where
  /-- 0 none, 1 lane test, 2 memory test. -/
  kind : Nat := 0
  unit : Nat := 0
  corr : KMap Nat := []
  out : Nat := 64
  slices : List Nat := []
  regs : List (Nat × Word) := []
  /-- The memory block redirected to the save window for good (R225). -/
  redirected : Option Nat := none
  deriving DecidableEq, Repr

/-- One laser (R233 to R240). -/
structure LasSt where
  /-- The state that FORCED_OFF interrupted, by the codes of LB_STAT (R239). -/
  under : Nat := 0
  /-- Trips counted for LASn_LOCKOUT (R239). -/
  trips : Nat := 0
  /-- The last strobed value of HOLD_LB, and whether the output's group has been strobed (R230, R233). -/
  held : BitVec 16 := 0
  strobed : Bool := false
  /-- A dropped guard request leaves the guard timer expired (R248). -/
  due : Bool := false
  deriving DecidableEq, Repr

/-- The auxiliary DACs, the dither generators and the pins of the laser block (R228 to R238). -/
structure AdacSt where
  /-- Last strobed code of each AV output, whether its group has been strobed, and the code at its pin (R230, R231). -/
  held : KMap Nat := []
  strobed : BitVec 16 := 0
  code : KMap Nat := []
  /-- 1 + the REFCLK_HOST cycle of an output's last saturated update, 0 for none (R255). -/
  satAt : KMap Nat := []
  /-- Phase, FTW and AMP in force of each NCO (R231, R232). -/
  phase : Vector (BitVec 32) 4 := Vector.replicate 4 0
  ftw : Vector (BitVec 32) 4 := Vector.replicate 4 0x00080000
  amp : Vector (BitVec 16) 4 := Vector.replicate 4 0
  /-- TX_DIS is high (R237). -/
  txDis : Bool := false
  /-- The REFCLK_HOST cycle at which D_HK came up and the output grid of both converters began (R261). -/
  gridAt : Nat := 0
  deriving DecidableEq, Repr

/-- The settings of a conversion that R245 compares. -/
structure HkSet where
  input : Nat
  gain : Nat
  phase : Nat
  bank : Nat
  deriving DecidableEq, Repr

/-- A guard request (R248): from LAS for a laser, or from flare detection for a lane. -/
inductive Guard where
  | las (n : Nat)
  | flare (n : Nat)
  deriving DecidableEq, Repr

/-- What a conversion in progress is for. -/
inductive HkJob where
  | entry (e : Nat)
  | host
  | guard (g : Guard)
  deriving DecidableEq, Repr

/-- The conversion in progress of one converter: its job, its settings, the other fields of its entry, the outputs that it discards, and the grid instant at which it starts (R244, R245, R261). -/
structure HkRun where
  job : HkJob
  set : HkSet
  ref : Nat
  acc : Nat
  discard : Nat
  start : Nat
  deriving DecidableEq, Repr

/-- The last publication of one result slot (R251, R253). -/
structure HkRes where
  sum : BitVec 48 := 0
  min : BitVec 24 := 0
  max : BitVec 24 := 0
  cnt : Nat := 0
  seqn : Nat := 0
  input : Nat := 0
  fresh : Bool := false
  deriving DecidableEq, Repr

/-- The histories of one filter chain (R263): integrators and combs modulo 2^22, half-band and FIR inputs newest first. -/
structure FiltSt where
  int : List Nat := [0, 0, 0, 0]
  comb : List Nat := [0, 0, 0, 0]
  hb : List Int := List.replicate 23 0
  fir : List Int := List.replicate 63 0
  deriving DecidableEq, Repr

/-- One housekeeping converter (R244 to R273). -/
structure HkSt where
  run : Option HkRun := none
  /-- The settings of the conversion before (R245). -/
  prev : Option HkSet := none
  /-- The entry that follows, while a pass runs; the pass that should have started (R246). -/
  next : Nat := 0
  inPass : Bool := false
  late : Bool := false
  streak : Bool := false
  /-- Passes of each entry modulo its rotation (R247). -/
  rot : KMap Nat := []
  /-- Consecutive attempts of an entry that guards aborted (R250). -/
  aborts : KMap Nat := []
  /-- Queued guards, oldest first, at most 4 (R248). -/
  guards : List Guard := []
  /-- The job that a guard aborted, and the outputs that its restart discards at least (R248, R272). -/
  aborted : Option (HkJob × Nat) := none
  /-- A host request waits for the conversion in progress (R249). -/
  hostWait : Bool := false
  res : Vector HkRes 17 := Vector.replicate 17 {}
  filt : FiltSt := {}
  /-- Live and pending coefficient codes by 32 × bank + index (R266, R267). -/
  live : KMap Nat := []
  pend : KMap Nat := []
  deriving DecidableEq, Repr

/-- A watermark frame to be sent: its precedence class (0 response, 1 host, 2 LAT, 3 CAP), TYPE, SEQ and payload (R277, R287). -/
structure WmkFrame where
  cls : Nat
  typ : Nat
  seq : Nat
  payload : List Byte
  deriving DecidableEq, Repr

/-- A frame in a receive slot (R282). -/
structure WmkSlot where
  hdr : BitVec 32
  payload : List Byte
  deriving DecidableEq, Repr

/-- What the correlator and the decoder hold (R281): the last 32 hard symbol decisions, the newest in bit 0; of a frame in reception the count of symbols since its sync and those symbols, newest first, and its header once the header CRC has passed; and the frame whose last symbol is in and whose last bits are still being decoded. -/
structure WmkRx where
  reg : Nat := 0
  syms : Option (Nat × List Bool) := none
  hdr : Option (BitVec 32) := none
  tail : Option (BitVec 32 × Nat × List Bool) := none
  deriving DecidableEq, Repr

/-- The watermark modem and the flare logic of one lane (R274 to R294). -/
structure WmkSt where
  txBuf : KMap Word := []
  seq : Nat := 0
  queue : List WmkFrame := []
  sending : Option WmkFrame := none
  /-- Line symbols sent since the overlay came into force (R274); the overlay symbol at which the frame in transmission, and the one before it, began, with their symbols (R276, R277). -/
  pos : Nat := 0
  base : Nat := 0
  syms : List Bool := []
  lastBase : Nat := 0
  lastSyms : List Bool := []
  slots : List WmkSlot := []
  rx : WmkRx := {}
  /-- A frame has gone and no read of TX_CTRL has shown it (R283). -/
  doneNew : Bool := false
  /-- The last valid latency window of the lane, for LAT frames (R286): transmit A, B, receive, and the free-mode bit. -/
  lat : KMap Nat := []
  /-- V_REF in converter codes as an exact quotient SUM / (COUNT × G), none before its first update (R290). -/
  vref : Option (Int × Nat) := none
  /-- A flare guard of this lane is queued or running (R290). -/
  guardOut : Bool := false
  /-- For each code, 1 + the REFCLK_HOST cycle of the MARK start of its last qualified reception that may be followed by a second, and of its last acceptance; 0 for none (R292). -/
  lastQual : KMap Nat := []
  lastAcc : KMap Nat := []
  /-- The flare accepted for sending waits for the frame in progress (R289); B_n frozen at its start (R28). -/
  flareWait : Bool := false
  flareOn : Bool := false
  frozen : Nat := 0
  /-- The REFCLK_HOST cycle at which the flare's first LEAD began (R288). -/
  flareAt : Nat := 0
  /-- The code of the flare being sent (R288). -/
  flareCode : Nat := 0
  /-- A LOCATE echo waits for FLARE_RX to clear (R293); DTC at the end of the last LOCATE sent. -/
  echo : Bool := false
  lastLocate : Option Nat := none
  deriving DecidableEq, Repr

/-- What the management ports hold (R362 to R372). -/
structure MgmtSt where
  /-- CMIS bytes by their address: 0 to 127, or 256 × (256 × bank + page) + offset. -/
  cmis : KMap Byte := []
  /-- The gateway's CMIS shadow (R380), likewise addressed. -/
  shadow : KMap Byte := []
  /-- The current CMIS byte offset of the two-wire port. -/
  ptr : Nat := 0
  /-- The bytes that the last read answered, and whether the last transaction was acknowledged. -/
  out : List Byte := []
  ack : Bool := true
  /-- Target events enabled by ENEC (R362). -/
  events : Byte := 0
  /-- The port is released: management ready, or the early release of R450 (R453). -/
  released : Bool := false
  /-- The host has allowed power-up (R452, R454). -/
  allowed : Bool := false
  lpmode : Bool := false
  deriving DecidableEq, Repr

/-- A fuse blow under way (R438): the command and its slot. -/
structure Blow where
  cmd : Nat
  slot : Nat
  deriving DecidableEq, Repr

/-- Fuses, Reams and commands of SEC (R426 to R441). -/
structure SecSt where
  /-- Flash bytes that are not erased (R426). -/
  flash : KMap Byte := []
  /-- Key digests by 64 × slot + byte; slots programmed and revoked; F; the observation lock (R430). -/
  keys : KMap Byte := []
  progd : BitVec 4 := 1
  revoked : BitVec 4 := 0
  rollF : Nat := 0
  lock : Bool := false
  /-- SHA-512 of the signed parts of the base and the customer Ream in force, and ROLLBACK of the base (R437, R439). -/
  baseSha : List Byte := []
  custSha : List Byte := []
  baseRoll : Nat := 0
  /-- The passed DL_VERIFY stands, the kind it found, and CAP0 is taken for the buffer (R434). -/
  verified : Option Nat := none
  dlTaken : Bool := false
  /-- Report bytes, reports signed since boot, and the report under way (R437). -/
  report : List Byte := []
  signed : Nat := 0
  attWait : Bool := false
  attBody : Option (List Byte) := none
  blow : Option Blow := none
  /-- The flash slot that DL_PROGRAM writes; DL_ACTIVATE runs (R434, R435). -/
  progSlot : Option Nat := none
  actRun : Bool := false
  /-- Initial bytes of ENGM and TBLM as the Ream in force names them, by memory address (R312). -/
  init : KMap Byte := []
  /-- LB_CTRL.EN bits of the default set, kept until the host allows power-up (R452, R454). -/
  defEn : BitVec 8 := 0
  deriving DecidableEq, Repr

/-- The NV store (R442 to R445); the journal itself lies in flash. -/
structure NvSt where
  buf : KMap Word := []
  /-- Records whose body is written and whose commit word is not, oldest first: TYPE, KEY, the flash address of the commit word. -/
  wait : List (Nat × Nat × Nat) := []
  /-- KEY of the next black box, DTC of the last, and the entries written last, newest first (R443, R445). -/
  bbKey : Nat := 0
  bbLast : Option Nat := none
  recent : List (BitVec 64) := []
  /-- Compaction: 0 none, 1 due, 2 under way with the holding records in the other slot (R444). -/
  compact : Nat := 0
  /-- Records requested that wait for the end of a compaction or for VAUX, oldest first: TYPE, KEY, payload (R444, R460). -/
  queue : List (Nat × Nat × List Byte) := []
  /-- VAUX has fallen below 2.9 V and not come back: no new flash command (R460). -/
  hold : Bool := false
  deriving DecidableEq, Repr

/-- Bring-up (R451): waiting for rails with the environment that will be met, since power-on release or another cause. -/
structure BootSt where
  waiting : Option BootEnv := none
  /-- What the outside last showed at a bring-up, which a reset through a register write meets again. -/
  env : BootEnv := {}
  /-- Management ready has been reached. -/
  ready : Bool := false
  deriving DecidableEq, Repr

/-- Why the device stops. No rule of the spec stops the whole device, so nothing raises one: every command has a next state (log entry 1). -/
inductive Fault where
  /-- Raised by no meaning; it stands for a fault the spec does not give. Safe: nothing answers it. -/
  | none
  deriving DecidableEq, Repr

/-- Why a command has no meaning. -/
inductive Refusal where
  /-- The command, by its mnemonic, has no meaning yet. Safe: the model stops where the device goes on. -/
  | notModelled (mnemonic : String)
  deriving DecidableEq, Repr

/-- The numbers of the defined events (R384). -/
def definedEvents : List Nat :=
  List.range 5 ++ List.range' 16 7 ++ List.range' 24 3 ++ List.range' 32 9 ++ List.range' 48 4 ++ List.range' 64 7
    ++ List.range' 96 7 ++ List.range' 112 5 ++ [128, 129] ++ List.range' 144 3 ++ List.range' 152 168 ++ List.range' 320 146
    ++ List.range' 466 7 ++ [480, 481] ++ List.range' 484 17

/-- The mask after reset: 1 in the bit of each defined event (R373, R403). -/
def defined : BitVec 512 := BitVec.ofNat 512 (definedEvents.foldl (fun a e => a + 2 ^ e) 0)

/-- The state of the device (log entry 2 says how the registers are held). -/
structure State where
  /-- The value of every register and twin as written or as set by its block; an unlisted address holds its reset word (R464, R465). -/
  regs : KMap Word := []
  /-- The values in force of the RWE registers (R92, R122); an unlisted address has its reset word in force. -/
  force : KMap Word := []
  /-- The targets that epochs have set for the ramped controls (R73, R117). -/
  target : KMap Word := []
  /-- The values that RWE registers held when an epoch strobe took effect, until the boundary (R92). -/
  held : KMap (Option Word) := []
  /-- The bytes of the memory macros by macro × 65,536 + byte (R298). -/
  mem : List Host.Cell := []
  /-- The error of each byte's stored check bits against its stored data (R299, R300). -/
  chk : KMap (BitVec 5) := []
  /-- The written flags W by the byte address of the ECC word (R304). -/
  wflag : KMap Bool := []
  /-- Soft repairs of each macro: the spare columns used in bits [3:0], the spare rows in [5:4], beyond repair in [6] (R317, R319). -/
  rep : KMap Nat := []
  /-- Bytes whose correctable error has been counted and not yet corrected (R307). -/
  ceSeen : KMap Bool := []
  /-- Where the scrubber of each region stands in its pass: scrub lines of the region from its first block on (R306). -/
  scrub : KMap Nat := []
  /-- Scrub lines that the scrubber visits next, after an owner or management has met an error there: memory block and line (R307). -/
  scrubNext : List (Nat × Nat) := []
  /-- Words that a recovery has still to rewrite: memory block and ECC word (R312). -/
  memPend : List (Nat × Nat) := []
  lanes : Vector LaneSt 8 := Vector.replicate 8 {}
  hosts : Vector HostSt 16 := Vector.replicate 16 {}
  presses : List PressRun := []
  /-- Writes to staging twins held until a press ends (R377). -/
  twinHeld : List (Nat × Word) := []
  evt : EvtSt := { mask := defined }
  pwr : PwrSt := {}
  time : TimeSt := {}
  obs : ObsSt := {}
  caps : Vector CapSt 4 := Vector.replicate 4 {}
  trc : TrcSt := {}
  eng : Vector EngSt 5 := Vector.replicate 5 {}
  seq : SeqSt := {}
  cal : Vector CalSt 8 := Vector.replicate 8 {}
  ist : IstSt := {}
  las : Vector LasSt 8 := Vector.replicate 8 {}
  adac : AdacSt := {}
  /-- HKA and HKB. -/
  hk : Vector HkSt 2 := Vector.replicate 2 {}
  wmk : Vector WmkSt 8 := Vector.replicate 8 {}
  /-- The first band decision since power-on has been made (R352). -/
  banded : Bool := false
  /-- The roles in force of each sensor, which a change reaches at its next reading: bit 0 band, 1 warning, 2 shutdown (R351). -/
  roles : KMap Nat := []
  mgmt : MgmtSt := {}
  sec : SecSt := {}
  nv : NvSt := {}
  boot : BootSt := {}
  /-- How many open values have been drawn from Config.freeValue; the model's own field (log entry 3). -/
  drawn : Nat := 0
  /-- The commands that are waiting, first in, first out. -/
  pending : List Instr := []
  deriving DecidableEq, Repr

/-- Power-on reset as power-up leaves it, before its release: every register at its reset word, nothing powered, no program loaded (R449, R464); log entry 6 says how a program of the engines comes to run. -/
def State.reset : State := {}

end Sys2Proof.Machine
end

