-- ==== Sys2Proof/Machine/Ops.lean ====
section
/-! DEFINITION. The named operations that every family shares: registers and their fields, the values in force, the memories with their check bits, the star-map counters, error records, raising an event and firing a binding. -/

namespace Sys2Proof.Machine

/-- The outcome of a command that completes. -/
abbrev nxt (s : State) : Host.Outcome State Fault Refusal := .next s

/-! Registers -/

/-- A field of a register: its page offset, its lowest bit and its width. -/
structure Fld where
  off : Nat
  lsb : Nat
  w : Nat
  deriving DecidableEq, Repr

/-- The word at a native address. -/
def State.rd (s : State) (a : Nat) : Nat := (kget (resetWord a) s.regs a).toNat

/-- The state with the word at a native address changed. -/
def State.wr (s : State) (a v : Nat) : State :=
  { s with regs := kput (resetWord a) s.regs a (BitVec.ofNat 32 v) }

/-- A field of a register of a page. -/
def State.fget (s : State) (p : Nat) (f : Fld) : Nat := bits (s.rd (ra p f.off)) f.lsb f.w

/-- The state with a field of a register of a page changed. -/
def State.fset (s : State) (p : Nat) (f : Fld) (x : Nat) : State :=
  s.wr (ra p f.off) (setBits (s.rd (ra p f.off)) f.lsb f.w x)

/-- A one-bit field as a Bool. -/
def State.flag (s : State) (p : Nat) (f : Fld) : Bool := s.fget p f == 1

/-- The state with a one-bit field changed. -/
def State.setFlag (s : State) (p : Nat) (f : Fld) (b : Bool) : State := s.fset p f (bit b)

/-- The word in force of an RWE register (R92). -/
def State.inForce (s : State) (a : Nat) : Nat := (kget (resetWord a) s.force a).toNat

/-- The state with the word in force of an RWE register changed. -/
def State.setForce (s : State) (a v : Nat) : State :=
  { s with force := kput (resetWord a) s.force a (BitVec.ofNat 32 v) }

/-- A field of the word in force. -/
def State.ffget (s : State) (p : Nat) (f : Fld) : Nat := bits (s.inForce (ra p f.off)) f.lsb f.w

/-- Add to a field, holding it at its largest value. -/
def State.fsat (s : State) (p : Nat) (f : Fld) (n : Nat) : State :=
  s.fset p f (min (s.fget p f + n) (2 ^ f.w - 1))

/-- Add to a field modulo its size. -/
def State.fadd (s : State) (p : Nat) (f : Fld) (n : Nat) : State := s.fset p f (s.fget p f + n)

/-! The parts of the state by number -/

/-- The state with one line lane changed. -/
def State.setLane (s : State) (n : Lane) (f : LaneSt → LaneSt) : State :=
  { s with lanes := s.lanes.set n (f s.lanes[n]) }

/-- The state with one host lane changed. -/
def State.setHost (s : State) (h : Host16) (f : HostSt → HostSt) : State :=
  { s with hosts := s.hosts.set h (f s.hosts[h]) }

/-- The state with one engine changed. -/
def State.setEng (s : State) (e : Eng) (f : EngSt → EngSt) : State :=
  { s with eng := s.eng.set e (f s.eng[e]) }

/-- The state with one capture unit changed. -/
def State.setCap (s : State) (k : Fin 4) (f : CapSt → CapSt) : State :=
  { s with caps := s.caps.set k (f s.caps[k]) }

/-- The state with the calibration of one lane changed. -/
def State.setCal (s : State) (n : Lane) (f : CalSt → CalSt) : State :=
  { s with cal := s.cal.set n (f s.cal[n]) }

/-- The state with one laser changed. -/
def State.setLas (s : State) (n : Lane) (f : LasSt → LasSt) : State :=
  { s with las := s.las.set n (f s.las[n]) }

/-- The state with one converter changed. -/
def State.setHk (s : State) (b : Fin 2) (f : HkSt → HkSt) : State :=
  { s with hk := s.hk.set b (f s.hk[b]) }

/-- The state with the watermark of one lane changed. -/
def State.setWmk (s : State) (n : Lane) (f : WmkSt → WmkSt) : State :=
  { s with wmk := s.wmk.set n (f s.wmk[n]) }

/-- Do one thing for each element of a list, in order. -/
def each {α : Type} (l : List α) (f : α → State → State) (s : State) : State := l.foldl (fun s a => f a s) s

/-- Do one thing where a condition holds. -/
def onlyIf (c : Bool) (f : State → State) (s : State) : State := if c then f s else s

/-! Open values -/

/-- A value the spec leaves open, of `w` bits, and the state that has drawn it (log entry 3). -/
def State.draw (s : State) (w : Nat) : Nat × State :=
  ((Config.freeValue s.drawn).toNat % 2 ^ w, { s with drawn := s.drawn + 1 })

/-! Error records -/

/-- ERR_INFO of a page records a page, an offset, a cause and a kind (R373). -/
def errInfo (at_ : Nat) (page off cause kind : Nat) (s : State) : State :=
  s.wr (ra at_ 0x024) (page % 4096 + off % 1024 * 2 ^ 12 + cause % 256 * 2 ^ 22 + kind % 4 * 2 ^ 30)

/-- ERR_INFO of a page records an ignored write or command at an offset of its own (R373, KIND 2). -/
def ignored (page off cause : Nat) (s : State) : State := errInfo page page off cause 2 s

/-- MGT.LAST_ERR records a failed access (R382). -/
def lastErr (page off cause : Nat) (write spi : Bool) (s : State) : State :=
  s.wr (ra 0x006 0x044) (page % 4096 + off % 1024 * 2 ^ 12 + cause % 16 * 2 ^ 22 + bit write * 2 ^ 26 + bit spi * 2 ^ 27)

/-! Memories -/

/-- The region of a memory block (R298). -/
def regionOf (m : Nat) : Nat :=
  if m < 128 then 0 else if m < 152 then 1 else if m < 160 then 2 else if m < 164 then 3
  else if m < 174 then 4 else if m = 174 then 5 else 6

/-- The bytes of a region's ECC word (R298). -/
def eccBytes (r : Nat) : Nat := if r = 2 ∨ r = 6 then 4 else if r = 4 then 3 else 8

/-- The bytes of a region's scrub line (R298). -/
def lineBytes (r : Nat) : Nat := if r = 2 then 256 else if r = 4 then 24 else 64

/-- The bytes of a memory block (R298). -/
def blockBytes (m : Nat) : Nat := if regionOf m = 4 then 24576 else if m = 174 then 8192 else 65536

/-- Whether the device initialises the byte at an address during boot (R303). -/
def devInit (a : Nat) : Bool :=
  let m := a / 65536
  let r := regionOf m
  let w := a % 65536 / 3
  r == 1 || r == 3 || r == 5 || r == 6 || m == 172 || m == 173
    || (r == 4 && (w < 0x800 || (0x1000 ≤ w && w < 0x1800)))

/-- What an unlisted byte of memory holds: zero where the device initialises it (R303), what the memory took at power-up elsewhere (R305). -/
def memDef (a : Nat) : Byte := if devInit a then 0 else Config.powerUpByte a

/-- The error that an unlisted byte's check bits show (R303, R305). -/
def chkDef (a : Nat) : BitVec 5 := if devInit a then 0 else Config.powerUpCheck a

/-- The stored byte at an address. -/
def State.byte (s : State) (a : Nat) : Byte := kget (memDef a) s.mem a

/-- The error of the check bits stored with a byte. -/
def State.chkErr (s : State) (a : Nat) : BitVec 5 := kget (chkDef a) s.chk a

/-- The check bits c4 to c0 of a byte (R299). -/
def checkBits (d : Nat) : Nat :=
  let x (l : List Nat) : Bool := (l.filter (fun i => d.testBit i)).length % 2 == 1
  let c0 := x [0, 1, 3, 4, 6]
  let c1 := x [0, 2, 3, 5, 6]
  let c2 := x [1, 2, 3, 7]
  let c3 := x [4, 5, 6, 7]
  let c4 := xor (x [0, 1, 2, 3, 4, 5, 6, 7]) (xor (xor c0 c1) (xor c2 c3))
  bit c0 + 2 * bit c1 + 4 * bit c2 + 8 * bit c3 + 16 * bit c4

/-- What the checker finds in a byte (R300). -/
inductive Ecc where
  | ok | ce | ue
  deriving DecidableEq, Repr

/-- The checker's decision from the error of the stored check bits: s is its low four bits, p the parity of all five (R300). -/
def eccOf (e : BitVec 5) : Ecc :=
  let s := e.toNat % 16
  let p := ((List.range 5).filter (fun i => e.toNat.testBit i)).length % 2 == 1
  if s = 0 ∧ p = false then .ok else if p ∧ s ≤ 12 then .ce else .ue

/-- The data bit at a bit position of the code (R299); none where the position holds a check bit. -/
def dataBitAt (pos : Nat) : Option Nat :=
  match pos with
  | 3 => some 0 | 5 => some 1 | 6 => some 2 | 7 => some 3 | 9 => some 4 | 10 => some 5 | 11 => some 6 | 12 => some 7
  | _ => none

/-- The byte as the checker corrects it (R300). -/
def corrected (d : Byte) (e : BitVec 5) : Byte :=
  if eccOf e = .ce then
    match dataBitAt (e.toNat % 16) with
    | some i => d ^^^ BitVec.ofNat 8 (2 ^ i)
    | none => d
  else d

/-- The byte that a read of an address returns (R300). -/
def State.fetch (s : State) (a : Nat) : Byte := corrected (s.byte a) (s.chkErr a)

/-- The bytes that a read of `n` addresses from `a` returns. -/
def State.fetchN (s : State) (a n : Nat) : List Byte := (List.range n).map (fun i => s.fetch (a + i))

/-- Whether a read of `n` bytes from `a` is uncorrectable (R300). -/
def State.isUe (s : State) (a n : Nat) : Bool := (List.range n).any (fun i => eccOf (s.chkErr (a + i)) == .ue)

/-- The first byte of the ECC word that holds an address (R298). -/
def eccBase (a : Nat) : Nat :=
  let k := eccBytes (regionOf (a / 65536))
  a / 65536 * 65536 + a % 65536 / k * k

/-- The written flag W of the ECC word that holds an address (R304). -/
def State.written (s : State) (a : Nat) : Bool := kget (devInit (eccBase a)) s.wflag (eccBase a)

/-- The state with one stored byte and the error of its check bits changed. -/
def State.putByte (s : State) (a : Nat) (b : Byte) (e : BitVec 5) : State :=
  { s with mem := kput (memDef a) s.mem a b, chk := kput (chkDef a) s.chk a e, ceSeen := kput false s.ceSeen a false }

/-- The state with bytes stored from an address on, each with its check bits in error by `e`. -/
def State.putBytes (s : State) (a : Nat) (bs : List Byte) (e : BitVec 5) : State :=
  match bs with
  | [] => s
  | b :: r => State.putBytes (s.putByte a b e) (a + 1) r e

/-- MEM.UE_LOG entries (R311, R319). -/
def ueLog (i : Nat) : Nat := ra 0x00B (0x070 + 4 * i)

/-- LIVE of the UE_LOG entry of a word clears (R311). -/
def clearLive (m w : Nat) (s : State) : State :=
  each (List.range 8) (fun i s =>
    let v := s.rd (ueLog i)
    if tb v 23 && tb v 22 && bits v 14 8 == m && bits v 0 14 == w then s.wr (ueLog i) (setBits v 22 1 0) else s) s

/-- MEM.FLIP_MASK. -/
def flipMask : Nat := ra 0x00B 0x068

/-- FLIP_MASK acts on the next write to a region, from any writer: enabled, not empty, and naming the region (R314, R315). -/
def flipActs (s : State) (r : Nat) : Bool :=
  let fm := s.rd flipMask
  tb (s.rd (ra 0x00B 0x040)) 0 && fm % 8192 != 0 && bits fm 13 3 == r

/-- The data bits that the flip mask inverts in each byte of a write to a region (R315). -/
def flipData (s : State) (r : Nat) : Byte := if flipActs s r then BitVec.ofNat 8 (s.rd flipMask % 256) else 0

/-- The error that the flip mask leaves in the check bits of each byte of a write to a region, against the data stored (R299, R315). -/
def flipCheck (s : State) (r : Nat) : BitVec 5 :=
  if flipActs s r then BitVec.ofNat 5 (checkBits (s.rd flipMask % 256) ^^^ bits (s.rd flipMask) 8 5) else 0

/-- FLIP_MASK returns to 0 once a write has met it (R315). -/
def flipSpent (r : Nat) (s : State) : State := if flipActs s r then s.wr flipMask 0 else s

/-- One write of consecutive bytes of a region, whose check bits are in error by `e` where no flip mask acts (R315). -/
def store (a : Nat) (bs : List Byte) (e : BitVec 5) (s : State) : State :=
  let r := regionOf (a / 65536)
  flipSpent r (s.putBytes a (bs.map (fun b => b ^^^ flipData s r)) (e ^^^ flipCheck s r))

/-- A write of whole ECC words at an address: fresh check bits, W set, LIVE and poison ended, FLIP_MASK acting once (R304, R310, R311, R315). -/
def memWrite (a : Nat) (bs : List Byte) (s : State) : State :=
  let m := a / 65536
  let k := eccBytes (regionOf m)
  let ws := (List.range ((bs.length + k - 1) / k)).map (fun i => a % 65536 / k + i)
  each ws (fun w s => clearLive m w { s with wflag := kput (devInit (m * 65536 + w * k)) s.wflag (m * 65536 + w * k) true }) (store a bs 0 s)

/-! Raising an event -/

/-- The page of an event (R384). -/
def pageOfEvent (e : Nat) : Option Nat :=
  if e < 16 then some 0x000
  else if 16 ≤ e ∧ e ≤ 20 then some 0x007
  else if e = 21 ∨ e = 22 then some 0x00D
  else if 24 ≤ e ∧ e ≤ 26 then some 0x068
  else if 32 ≤ e ∧ e ≤ 40 then some 0x001
  else if 48 ≤ e ∧ e ≤ 51 then some 0x002
  else if 64 ≤ e ∧ e ≤ 70 then some 0x00B
  else if 96 ≤ e ∧ e ≤ 111 then some 0x004
  else if 112 ≤ e ∧ e ≤ 127 then some 0x005
  else if e = 128 ∨ e = 129 then some 0x006
  else if (144 ≤ e ∧ e ≤ 146) ∨ (152 ≤ e ∧ e ≤ 159) then some 0x00C
  else if 160 ≤ e ∧ e < 320 then
    let n := (e - 160) / 20
    let k := (e - 160) % 20
    some (if k < 8 then 0x030 + n else if k < 12 then 0x028 + n else 0x020 + n)
  else if 320 ≤ e ∧ e < 416 then
    some (if (e - 320) % 6 < 4 then 0x040 + (e - 320) / 6 else 0x050 + (e - 320) / 6)
  else if 416 ≤ e ∧ e < 448 then some (0x038 + (e - 416) / 4)
  else if (448 ≤ e ∧ e ≤ 465) ∨ e = 472 then some 0x067
  else if 466 ≤ e ∧ e ≤ 468 then some 0x060
  else if 469 ≤ e ∧ e ≤ 471 then some 0x062
  else if 480 ≤ e ∧ e ≤ 483 then some 0x009
  else if 484 ≤ e ∧ e < 500 then some (0x018 + (e - 484) / 4)
  else if 500 ≤ e ∧ e < 512 then some 0x00A
  else none

/-- The events listed for a page in ascending order, so that bit i of its event words is the i-th (R384). -/
def eventsOf (k : Kind) (i : Nat) : List Nat :=
  match k with
  | .sys => List.range 16 | .clk => List.range' 16 5 | .lat => [21, 22] | .bist => [24, 25, 26] | .pwr => List.range' 32 9
  | .thm => List.range' 48 4 | .mem => List.range' 64 7 | .sec => List.range' 96 16 | .nvs => List.range' 112 16
  | .mgt => [128, 129] | .seq => [144, 145, 146] ++ List.range' 152 8 | .lfm => List.range' (160 + 20 * i) 8
  | .ltx => List.range' (168 + 20 * i) 4 | .lrx => List.range' (172 + 20 * i) 8 | .hrx => List.range' (320 + 6 * i) 4
  | .htx => List.range' (324 + 6 * i) 2 | .wmk => List.range' (416 + 4 * i) 4 | .las => List.range' 448 18 ++ [472]
  | .hka => [466, 467, 468] | .adac => [469, 470, 471] | .obs => List.range' 480 4 | .cap => List.range' (484 + 4 * i) 4
  | .trc => List.range' 500 12
  | .evt | .xbar | .eng | .hkb | .nco => []

/-- Event k of line lane n's LFM, LTX and LRX (R69, R132, R108). -/
def evLane (n k : Nat) : Nat := 160 + 20 * n + k
/-- Event k of host lane h (R156). -/
def evHost (h k : Nat) : Nat := 320 + 6 * h + k
/-- Event k of WMKn (R296). -/
def evWmk (n k : Nat) : Nat := 416 + 4 * n + k

/-- EVT_COUNT of a page (R373). -/
def evtCount : Fld := ⟨0x018, 0, 16⟩
/-- EVT.LOST (R403). -/
def evtLost : Fld := ⟨0x054, 0, 32⟩

/-- The address of a counter's OBSM word (R406). -/
def ctrAddr (i : Nat) : Nat := 128 * 65536 + 8 * i

/-- The value of a counter or bin. -/
def State.ctr (s : State) (i : Nat) : Nat := ofLE (s.fetchN (ctrAddr i) 8) % 2 ^ 48

/-- A counter's word is written. -/
def ctrPut (i v : Nat) (s : State) : State := memWrite (ctrAddr i) (bytesLE 8 (min v (2 ^ 48 - 1))) s

/-- Add to a counter as its source does: an invalid one restarts from 0 (R406, R408). Nothing is added while D_CORE, which holds OBSM, has no power (R31; log entry 36). Saturation is seen by `addCtr0`. -/
def ctrAdd (i n : Nat) (s : State) : State :=
  if n = 0 ∨ s.pwr.coreOn = false then s
  else if i ∈ s.obs.invalid then
    ctrPut i n { s with obs := { s.obs with invalid := s.obs.invalid.erase i, restarted := i :: s.obs.restarted } }
  else ctrPut i (s.ctr i + n) s

/-- EVT_COUNT of an event's page counts it, holding at its largest value (R373, R386). -/
def countEvent (e : Nat) (s : State) : State :=
  match pageOfEvent e with
  | some p => s.fsat p evtCount 1
  | none => s

/-- The queued requests whose entries an occurrence of an event must follow beside those of its causes: the ends of presses of its page (R398). -/
def pressesOf (e : Nat) (s : State) : List Nat :=
  (s.evt.queue.filter (fun r => match pageOfEvent e with | some p => r.pages.contains p | none => false)).map (fun r => r.id)

/-- The status bit and the log request of an occurrence, which `after` and the ends of presses of its page precede; a third request of one source is lost, and `add` counts it (R386, R387, R392, R397, R398). -/
def intake (add : Nat → Nat → State → State) (e detail : Nat) (after : List Nat) (s : State) : State :=
  let v : EvtSt := { s.evt with stat := s.evt.stat ||| BitVec.ofNat 512 (2 ^ e), occ := s.evt.occ + 1 }
  if (s.evt.queue.filter (fun r => r.ev == e)).length < 2 then
    { s with evt := { v with queue := v.queue ++ [{ ev := e, detail := detail % 128, id := s.evt.occ, after := after ++ pressesOf e s }] } }
  else
    add 1 1 ({ s with evt := { v with lossSince := v.lossSince + 1 } }.fsat 0x003 evtLost 1)

/-- The event logic's intake of an occurrence: count, status and log request; a reserved number raises nothing (R384, R386). `after` names occurrences that must be logged before it (R397). -/
def raise0 (add : Nat → Nat → State → State) (e detail : Nat) (after : List Nat) (s : State) : State :=
  if defined.getLsbD e = false then s else intake add e detail after (countEvent e s)

/-- SEQ.BIND_b (R208). -/
def bindAddr (b : Nat) : Nat := ra 0x00C (0x100 + 4 * b)

/-- SRC_NUM as a trigger source reads it (R200): bits beyond its code are not compared. -/
def srcNum (src num : Nat) : Nat :=
  match src with
  | 1 => num % 16 | 3 => num % 8 | 4 => num % 16 | 7 => num % 64 | _ => num % 512

/-- The enabled bindings of a trigger source whose SRC_NUM satisfies a condition, in number order (R200, R201). A binding is enabled only where its register has been written, so only listed registers are searched; the scheduler lies in D_CORE and takes no trigger while that has no power (R31). -/
def boundWith (s : State) (src : Nat) (ok : Nat → Bool) : List Nat :=
  (s.regs.filter (fun e =>
    s.pwr.coreOn && bindAddr 0 ≤ e.1 && e.1 ≤ bindAddr 63 && e.1 % 4 == 0 && tb e.2.toNat 28 && bits e.2.toNat 12 3 == src
      && ok (srcNum src (bits e.2.toNat 16 9)))).map (fun e => (e.1 - bindAddr 0) / 4)

/-- The enabled bindings of one trigger of a source. -/
def boundTo (s : State) (src num : Nat) : List Nat := boundWith s src (fun x => x == num)

/-- An occurrence that counting or a firing meets: the bindings of its event fire next (R200, R386; log entry 7). -/
def raiseNext (e detail : Nat) (after : List Nat) (s : State) : State :=
  let s := raise0 ctrAdd e detail after s
  { s with seq := { s.seq with fired := s.seq.fired ++ boundTo s 5 e } }

/-- Add to a counter, raising event 481 at its first saturation (R406). -/
def addCtr0 (i n : Nat) (s : State) : State :=
  let sat := s.pwr.coreOn && decide (i ∉ s.obs.invalid ∧ 2 ^ 48 ≤ s.ctr i + n ∧ i ∉ s.obs.satSeen)
  let s := ctrAdd i n s
  if sat then raiseNext 481 (i / 4096) [] { s with obs := { s.obs with satSeen := i :: s.obs.satSeen } } else s

/-- A star-map index of line lane n (R407). -/
def cLane (n off : Nat) : Nat := 0x08000 + 0x1000 * n + off
/-- A star-map index of host lane h (R407). -/
def cHost (h off : Nat) : Nat := 0x10000 + 0x100 * h + off

/-! Firing a binding -/

/-- A directory entry (R196). -/
def State.dirOf (s : State) (sheet : Nat) : Nat := (kget 0 s.seq.dir sheet).toNat

/-- SEQ.FAULT_INFO (R208). -/
def faultInfo (engine cause sheet step : Nat) (s : State) : State :=
  s.wr (ra 0x00C 0x04C) (engine % 8 + cause % 16 * 8 + sheet % 256 * 2 ^ 7 + step % 2 ^ 15 * 2 ^ 15)

/-- A firing of a binding: a request, a merged request, or a fault of cause 9; `add` counts (R197, R200, R201). -/
def fireWith (add : Nat → Nat → State → State) (b : Nat) (s : State) : State :=
  let w := s.rd (bindAddr b)
  let sheet := bits w 0 8
  let s := add (0x80 + 2 * b) 1 s
  if tb (s.dirOf sheet) 31 = false then raiseNext 145 (7 + 9 * 8) [] (faultInfo 7 9 sheet 0 s)
  else if s.seq.queue.any (fun q => q.bind == b) then add (0x81 + 2 * b) 1 s
  else
    { s with seq := { s.seq with queue := s.seq.queue ++
        [{ bind := b, sheet := sheet, inst := bits w 8 4, prio := min (bits w 25 2) 2, sys := tb w 27 }] } }

/-- An occurrence of an event after others, and the firing of its bindings; `add` counts (R200, R386, R397). -/
def raiseWith (add : Nat → Nat → State → State) (e detail : Nat) (after : List Nat) (s : State) : State :=
  let s := raise0 add e detail after s
  each (boundTo s 5 e) (fireWith add) s

/-- The number that the next occurrence will have. -/
def State.nextOcc (s : State) : Nat := s.evt.occ

/-! Memory errors -/

/-- Who reads a memory, by the codes of UE_LOG.SOURCE (R319). -/
inductive Reader where
  | scrubber | owner | management
  deriving DecidableEq, Repr

/-- UE_LOG.SOURCE (R319). -/
def Reader.code : Reader → Nat
  | .scrubber => 0 | .owner => 1 | .management => 2

/-- A correctable error of a region is counted (R308). -/
def countCe (add : Nat → Nat → State → State) (r : Nat) (s : State) : State :=
  let f : Fld := ⟨0x04C + 4 * r, 0, 8⟩
  let c := s.fget 0x00B f
  let s := add (0x10 + 4 * r) 1 (s.fsat 0x00B f 1)
  onlyIf (c == s.fget 0x00B ⟨0x044, 0, 8⟩ && c < 255) (raiseWith add 65 r []) s

/-- Poisoning of an ECC word: every byte as read, with check bits that differ by 0b00011 (R310). -/
def poison (m w : Nat) (s : State) : State :=
  let k := eccBytes (regionOf m)
  let a := m * 65536 + w * k
  store a ((List.range k).map (fun i => s.byte (a + i))) 0b00011#5 s

/-- A run of an engine as a request of its own, to be queued again (R199). -/
def runReq (k : Eng) (e : EngSt) (sys : Bool) : SeqReq :=
  { bind := e.bind, sheet := e.sheet, inst := e.inst, prio := e.prio, sys := sys, skip := max e.sigs e.skip, eng := k.val, step := e.pc }

/-- The engine that runs system bindings: ENG4, or the highest-numbered usable pool engine where ENG4 is UNUSABLE (R203). -/
def sysEng (s : State) : Option Eng := [(4 : Eng), 3, 2, 1, 0].find? (fun e => decide (0x010 + e.val ∉ s.pwr.unusable))

/-- The sheets whose directory range holds a step (R196, R312). -/
def sheetsOf (s : State) (step : Nat) : List Nat :=
  (s.seq.dir.filter (fun e => tb e.2.toNat 31 && bits e.2.toNat 0 15 ≤ step && step ≤ bits e.2.toNat 15 15)).map (fun e => e.1)

/-- A sheet's reload is queued: its runs are suspended (R199, R313). -/
def reloadSheet (sheet : Nat) (s : State) : State :=
  let runs := (List.finRange 5).filter (fun e => s.eng[e].phase != .idle && s.eng[e].sheet == sheet)
  let reqs := runs.map (fun e => runReq e s.eng[e] (sysEng s == some e))
  let s := each runs (fun e s => s.setEng e (fun g => { g with phase := .idle })) s
  let s := if s.seq.reload.any (fun x => x.1 == sheet) then
      { s with seq := { s.seq with reload := s.seq.reload.map (fun x => if x.1 == sheet then (x.1, x.2 ++ reqs) else x) } }
    else { s with seq := { s.seq with reload := s.seq.reload ++ [(sheet, reqs)] } }
  s.fset 0x00B ⟨0x0A8, 0, 1⟩ 1

/-- The start of the recovery of an uncorrectable word, whose event 64 is `occ`; `add` counts (R312, R313, R397, R408). -/
def recover (add : Nat → Nat → State → State) (m w occ : Nat) (s : State) : State :=
  match regionOf m with
  | 1 =>
    let i := (m - 128) * 8192 + w
    if i < 0x20000 ∧ i ∉ s.obs.invalid then
      raiseWith add 480 (i / 4096) [occ] { s with obs := { s.obs with invalid := i :: s.obs.invalid, restarted := s.obs.restarted.erase i } }
    else s
  | 3 =>
    let step := (m - 160) * 8192 + w
    let l := sheetsOf s step
    if l.isEmpty then memWrite (m * 65536 + 8 * w) (List.replicate 8 0) s else each l reloadSheet s
  | 4 | 6 => { s with memPend := s.memPend ++ [(m, w)] }.fset 0x00B ⟨0x0A8, 0, 1⟩ 1
  | 5 =>
    if w ∈ s.evt.bad then s else { s with evt := { s.evt with bad := w :: s.evt.bad } }.fsat 0x003 evtLost 1
  | _ => s

/-- Word w of block m has an entry of UE_LOG with LIVE = 1: it has been logged and not written since (R311). -/
def ueLogged (s : State) (m w : Nat) : Bool :=
  (List.range 8).any (fun i => let v := s.rd (ueLog i); tb v 23 && tb v 22 && bits v 14 8 == m && bits v 0 14 == w)

/-- The record of an uncorrectable word: the lowest free entry of UE_LOG, or OVF where none is free; and the entry that event 64 names (R311). -/
def ueRecord (src : Reader) (m w : Nat) (s : State) : Nat × State :=
  match (List.range 8).find? (fun i => !tb (s.rd (ueLog i)) 23) with
  | some i => (i, (s.wr (ueLog i) (w % 2 ^ 14 + m * 2 ^ 14 + 2 ^ 22 + 2 ^ 23 + src.code * 2 ^ 24)).fsat 0x00B ⟨0x090, 0, 4⟩ 1)
  | none => (15, s.fset 0x00B ⟨0x090, 4, 1⟩ 1)

/-- An uncorrectable error in a written word: poison, log, event 64 and recovery; a word logged and not written since is only counted (R309 to R312). `add` counts. -/
def ueFound (add : Nat → Nat → State → State) (src : Reader) (m w : Nat) (s : State) : State :=
  let r := regionOf m
  let s := poison m w s
  if ueLogged s m w then add (0x12 + 4 * r) 1 s
  else
    let occ := s.nextOcc
    let (i, s) := ueRecord src m w s
    add (0x11 + 4 * r) 1 (recover add m w occ (raiseWith add 64 (r + 8 * i) [] s))

/-- The correctable errors of a word are counted, each once (R307). -/
def ceFound (add : Nat → Nat → State → State) (a k : Nat) (s : State) : State :=
  each (List.range k) (fun i s =>
    if eccOf (s.chkErr (a + i)) = .ce ∧ kget false s.ceSeen (a + i) = false then
      countCe add (regionOf (a / 65536)) { s with ceSeen := kput false s.ceSeen (a + i) true }
    else s) s

/-- The scrubber visits the line of a byte next, where an owner or management has met an error in it (R307). -/
def visitNext (src : Reader) (a : Nat) (s : State) : State :=
  let x := (a / 65536, a % 65536 / lineBytes (regionOf (a / 65536)))
  if src = .scrubber ∨ x ∈ s.scrubNext then s else { s with scrubNext := s.scrubNext ++ [x] }

/-- The macro of the CAPM save window, the top 64 KiB of CAPM (R223). -/
def saveWindow : Nat := 127

/-- The block whose accesses go to the save window: the one under a macro test, or the one found beyond repair (R224, R225). -/
def State.redirect (s : State) : Option Nat := if s.ist.kind = 2 then some s.ist.unit else s.ist.redirected

/-- A macro is beyond repair (R319). -/
def State.unrep (s : State) (m : Nat) : Bool := tb (kget 0 s.rep m) 6

/-- A macro beyond repair whose accesses no in-service test has redirected to the save window (R222, R225). -/
def State.blockGone (s : State) (m : Nat) : Bool := s.unrep m && s.ist.redirected != some m

/-- Where a byte of the save window lies: while a block's accesses go to the window, the window's bytes are that block's (R224). -/
def State.window (s : State) (a : Nat) : Nat :=
  match s.redirect with
  | some m => if a / 65536 = saveWindow ∧ a % 65536 < blockBytes m then m * 65536 + a % 65536 else a
  | none => a

/-- A read of one ECC word: the bytes as corrected, whether the read is uncorrectable, and the state after its errors are acted on (R300, R305, R307, R309). A word with W = 0 raises nothing, nor does a memory block under an in-service test, nor its copy read in the save window (R224). `add` counts. -/
def readWith (add : Nat → Nat → State → State) (src : Reader) (m w : Nat) (s : State) : List Byte × Bool × State :=
  let k := eccBytes (regionOf m)
  let a := m * 65536 + w * k
  let b := s.window a
  let bs := s.fetchN b k
  let ue := s.isUe b k
  let ce := (List.range k).any (fun i => decide (eccOf (s.chkErr (a + i)) = .ce))
  if s.written a = false ∨ (s.ist.kind = 2 ∧ s.ist.unit = m) ∨ b ≠ a then (bs, ue, s)
  else if ue then (bs, true, ueFound add src m w s)
  else (bs, false, onlyIf ce (visitNext src a) (ceFound add a k s))

/-- Add to a counter, its source reading the counter's word, whose error makes the point invalid, and this update restarts it (R309, R406, R408; log entry 8); `n` bounds how many further counters' words in error one addition may meet in turn. -/
def addDeep (n i k : Nat) (s : State) : State :=
  match n with
  | 0 => addCtr0 i k s
  | n + 1 =>
    if k = 0 ∨ s.pwr.coreOn = false then s
    else if i ∈ s.obs.invalid then addCtr0 i k s
    else addCtr0 i k (readWith (addDeep n) .owner (128 + i / 8192) (i % 8192) s).2.2

/-- Add to a counter (R406, R408). -/
def addCtr (i n : Nat) (s : State) : State := addDeep 6 i n s

/-- A read of one ECC word (R300, R305, R307, R309). -/
def readWord (src : Reader) (m w : Nat) (s : State) : List Byte × Bool × State := readWith addCtr src m w s

/-- The errors of words that an owner has looked up in its work are acted on as its reads find them (R307, R309): of the words listed, those with an error are read. -/
def ownerMet (words : List (Nat × Nat)) (s : State) : State :=
  each words (fun x s =>
    let k := eccBytes (regionOf x.1)
    if (List.range k).any (fun i => s.chkErr (x.1 * 65536 + x.2 * k + i) != 0) then (readWord .owner x.1 x.2 s).2.2 else s) s

/-! Events and triggers -/

/-- An occurrence after others that it is a consequence of, and the firing of the bindings of the event (R386, R397, R200). -/
def raiseAfter (e detail : Nat) (after : List Nat) (s : State) : State := raiseWith addCtr e detail after s

/-- An occurrence after one that it may be a consequence of (R397). -/
def raiseC (e detail : Nat) (cause : Option Nat) (s : State) : State := raiseAfter e detail cause.toList s

/-- An occurrence of an event (R386) and the firing of its bindings (R200). -/
def raise (e detail : Nat) (s : State) : State := raiseAfter e detail [] s

/-- The occurrences of an event that wait to be logged, whose DETAIL satisfies a condition. -/
def State.waiting (s : State) (e : Nat) (ok : Nat → Bool) : List Nat :=
  (s.evt.queue.filter (fun r => r.ev == e && ok r.detail)).map (fun r => r.id)

/-- The firing of every enabled binding of a trigger source, in number order (R200, R201). -/
def fire (src num : Nat) (s : State) : State := each (boundTo s src num) (fireWith addCtr) s

/-- The bindings whose events counting or another firing raised fire (R200; log entry 7). -/
def fireNext (s : State) : State := each s.seq.fired (fireWith addCtr) { s with seq := { s.seq with fired := [] } }

/-- A frame boundary of line lane n: its count since the restart, and the bindings of every 2^K-th boundary (R200). -/
def fireFrame (n : Nat) (s : State) : State :=
  let c := kget 0 s.seq.bounds n + 1
  let s := { s with seq := { s.seq with bounds := kput 0 s.seq.bounds n c } }
  each (boundWith s 2 (fun x => x % 8 == n && c % 2 ^ bits x 4 4 == 0)) (fireWith addCtr) s

end Sys2Proof.Machine
end

