-- ==== Sys2Proof/Machine/Lane.lean ====
section
/-! DEFINITION. What the chapters share about lanes: their pages, the maps of the crossbar, park, dusk and power of a page, the substitute's flag, and the holdover of derived clocks (R18, R146, R154, R160, R323). -/

namespace Sys2Proof.Machine

/-- The REFCLK_HOST cycles of the device time counter (R170). -/
def State.cycles (s : State) : Nat := s.time.dtc.toNat / 65536

/-- The cycles since an earlier one, the counter's 48 bits wrapping (R170). -/
def State.since (s : State) (t : Nat) : Nat := (s.cycles + 2 ^ 48 - t) % 2 ^ 48

/-- Page LRXn. -/
def lrxP (n : Nat) : Nat := 0x020 + n
/-- Page LTXn. -/
def ltxP (n : Nat) : Nat := 0x028 + n
/-- Page LFMn. -/
def lfmP (n : Nat) : Nat := 0x030 + n
/-- Page WMKn. -/
def wmkP (n : Nat) : Nat := 0x038 + n
/-- Page HRXh. -/
def hrxP (h : Nat) : Nat := 0x040 + h
/-- Page HTXh. -/
def htxP (h : Nat) : Nat := 0x050 + h

/-- PG_STATE.PARK (R373). -/
def pgPark : Fld := ⟨0x004, 4, 2⟩
/-- PG_STATE.PRESS (R373). -/
def pgPress : Fld := ⟨0x004, 6, 2⟩
/-- LFM_MODE.CODING, RATE, TIMING (R68). -/
def lfmCoding : Fld := ⟨0x040, 0, 2⟩
/-- LFM_MODE.RATE. -/
def lfmRate : Fld := ⟨0x040, 2, 2⟩
/-- LFM_MODE.TIMING. -/
def lfmTiming : Fld := ⟨0x040, 4, 1⟩
/-- LFM_STAT.FSTATE (R68): 0 HUNT, 1 PRESYNC, 2 SYNC, 3 IDLE. -/
def lfmFstate : Fld := ⟨0x048, 0, 2⟩
/-- LFM_STAT.MISS_CNT. -/
def lfmMiss : Fld := ⟨0x048, 2, 3⟩
/-- LRX_STAT.LOS (R107). -/
def lrxLos : Fld := ⟨0x05C, 0, 1⟩
/-- LRX_STAT.CDR_LOCK. -/
def lrxCdr : Fld := ⟨0x05C, 1, 1⟩
/-- LRX_STAT.RAMP. -/
def lrxRamp : Fld := ⟨0x05C, 2, 1⟩
/-- LRX_STAT.DEC_MODE. -/
def lrxDec : Fld := ⟨0x05C, 4, 2⟩
/-- HRX_STAT.LOS (R155). -/
def hrxLos : Fld := ⟨0x054, 0, 1⟩
/-- HRX_STAT.CDR_LOCK. -/
def hrxCdr : Fld := ⟨0x054, 1, 1⟩
/-- HRX_STAT.RATE. -/
def hrxRate : Fld := ⟨0x054, 4, 2⟩
/-- HTX_STAT.SUBST. -/
def htxSubst : Fld := ⟨0x04C, 1, 1⟩
/-- HTX_STAT.SUBST_CAUSE. -/
def htxCause : Fld := ⟨0x04C, 2, 3⟩
/-- HTX_STAT.PLL_LOCK. -/
def htxPll : Fld := ⟨0x04C, 5, 1⟩
/-- HTX_STAT.RATE. -/
def htxRate : Fld := ⟨0x04C, 6, 2⟩
/-- HRX PAIR_STAT.FILL. -/
def hrxFill : Fld := ⟨0x064, 0, 9⟩
/-- PWR_STAT, lane n in dusk (R346). -/
def pwrDusk (n : Nat) : Fld := ⟨0x058, 8 + n, 1⟩
/-- PWR_STAT, lane n Waking. -/
def pwrWaking (n : Nat) : Fld := ⟨0x058, 16 + n, 1⟩
/-- PWR_STAT.STATE: 0 active, 1 entering, 2 low-power, 3 waking. -/
def pwrState : Fld := ⟨0x058, 0, 2⟩
/-- CLK_STAT.REFH_OK (R173). -/
def clkRefh : Fld := ⟨0x040, 0, 1⟩
/-- CLK_STAT.REFL_OK. -/
def clkRefl : Fld := ⟨0x040, 1, 1⟩
/-- CLK_STAT.HOLD of lane n. -/
def clkHold (n : Nat) : Fld := ⟨0x040, 8 + n, 1⟩
/-- THM_STAT.SHUT (R360). -/
def thmShut : Fld := ⟨0x040, 4, 1⟩
/-- WMK_STAT.FLARE_RX (R295). -/
def wmkFlareRx : Fld := ⟨0x04C, 3, 1⟩

/-- The live map of a line lane: the eleven bits of MAP_n (R146, R155). -/
def State.mapOf (s : State) (n : Lane) : Nat := s.rd (ra 0x008 (0x040 + 4 * n)) % 2048

/-- MAP.EN. -/
def mapEn (w : Nat) : Bool := tb w 10
/-- MAP.RATE. -/
def mapRate (w : Nat) : Nat := bits w 8 2
/-- MAP.HOST_A. -/
def mapA (w : Nat) : Host16 := ⟨w % 16, Nat.mod_lt _ (by decide)⟩
/-- MAP.HOST_B. -/
def mapB (w : Nat) : Host16 := ⟨w / 16 % 16, Nat.mod_lt _ (by decide)⟩

/-- The host lanes of a map: none while EN = 0, A alone below 400 Gb/s (R17, R146). -/
def mapHosts (w : Nat) : List Host16 :=
  if mapEn w then (if mapRate w = 0 then [mapA w, mapB w] else [mapA w]) else []

/-- The host lanes of a line lane. -/
def State.hostsOf (s : State) (n : Lane) : List Host16 := mapHosts (s.mapOf n)

/-- The line lane that a host lane is mapped to. -/
def State.laneOf (s : State) (h : Host16) : Option Lane :=
  (List.finRange 8).find? (fun n => decide (h ∈ s.hostsOf n))

/-- Whether a page reads PARKED (R374). -/
def State.parked (s : State) (p : Nat) : Bool := s.fget p pgPark == 2

/-- Whether a page is UNUSABLE (R77, R222, R322). -/
def State.bad (s : State) (p : Nat) : Bool := decide (p ∈ s.pwr.unusable)

/-- Whether a page's block is stopped: it reads PARKED or UNPARKING (R374). -/
def State.stopped (s : State) (p : Nat) : Bool := 2 ≤ s.fget p pgPark

/-- Whether the transmit side of a lane sends parked output: LTXn or LFMn is stopped (R45, R130). -/
def State.txParked (s : State) (n : Lane) : Bool := s.stopped (ltxP n) || s.stopped (lfmP n)

/-- Whether a line lane is in dusk or Waking (R321). -/
def State.dusky (s : State) (n : Lane) : Bool := s.flag 0x001 (pwrDusk n) || s.flag 0x001 (pwrWaking n)

/-- The coding mode, the rate and the timing mode of a line lane (R68). -/
def State.coding (s : State) (n : Lane) : Nat := s.fget (lfmP n) lfmCoding
/-- The rate of a line lane. -/
def State.rate (s : State) (n : Lane) : Nat := s.fget (lfmP n) lfmRate
/-- Whether a line lane is in free timing mode. -/
def State.free (s : State) (n : Lane) : Bool := s.flag (lfmP n) lfmTiming

/-- Thermal shutdown is latched (R358). -/
def State.shut (s : State) : Bool := s.flag 0x002 thmShut

/-- LRXn serves: it runs, not parked, not UNUSABLE, in no dusk and no foreground calibration. -/
def State.rxLive (s : State) (n : Lane) : Bool :=
  s.lanes[n].run && !s.stopped (lrxP n) && !s.bad (lrxP n) && !s.dusky n && !s.cal[n].fg

/-- Steps 1 and 2 of the entry to low power have begun: lanes are parked and outputs off, until the device is active again (R32, R328). -/
def State.lpDown (s : State) : Bool := 2 ≤ s.fget 0x001 pwrState || (s.fget 0x001 pwrState == 1 && s.seq.drain == 1)

/-- HTX_CTRL.OUT_EN. -/
def htxOutEn : Fld := ⟨0x048, 0, 1⟩

/-- What an HTX shows at its pins (R154). -/
inductive HtxOut where
  | highZ
  | idle
  | parked
  | pattern
  | mission
  deriving DecidableEq, Repr

/-- The output of a host lane by the rows of R154, the topmost that applies; the rows of the substitute and of data are one here. -/
def htxOut (s : State) (h : Host16) : HtxOut :=
  if !s.pwr.hostOn.getLsbD (h.val / 4) || s.lpDown then .highZ
  else
    match s.laneOf h with
    | none => .idle
    | some n =>
      if !s.flag (htxP h) htxPll || !s.flag (htxP h) htxOutEn || s.bad (htxP h) then .idle
      else if s.stopped (htxP h) || s.stopped (lrxP n) || s.stopped (lfmP n) || s.bad (lrxP n) || s.bad (lfmP n) || s.cal[n].fg then .parked
      else if s.fget (htxP h) ⟨0x040, 1, 2⟩ = 1 then .pattern
      else .mission

/-- HTX_STAT.SUBST sets with its cause, after the occurrence that causes it, where no higher row of R154 decides the output (R154, R397). -/
def substOn (cause : Nat) (after : Option Nat) (h : Host16) (s : State) : State :=
  if s.flag (htxP h) htxSubst || htxOut s h != .mission then s
  else raiseC (evHost h 4) cause after ((s.setFlag (htxP h) htxSubst true).fset (htxP h) htxCause cause)

/-- HTX_STAT.SUBST clears. -/
def substOff (h : Host16) (s : State) : State := s.setFlag (htxP h) htxSubst false

/-- A window of the latency meter that overlaps this instant on a line lane is invalid (R169, R286). -/
def latSpoil (n : Lane) (s : State) : State :=
  let s := s.setWmk n (fun w => { w with lat := [20, 21, 22].foldl (fun m i => kput 0 m i 0) w.lat })
  if s.fget 0x00D ⟨0x044, 0, 3⟩ == n.val then { s with time := { s.time with latBad := true } } else s

/-- Whether the source of a lane's derived clock is good: in locked mode the recovered clock of host lane A, or of the line; in free mode REFCLK_LINE for the transmit direction (R157, R160). -/
def State.sourceOk (s : State) (n : Lane) (rx : Bool) : Bool :=
  if rx then s.free n || (!s.flag (lrxP n) lrxLos && s.flag (lrxP n) lrxCdr)
  else if s.free n then s.flag 0x007 clkRefl
  else
    let a := mapA (s.mapOf n)
    !s.flag (hrxP a) hrxLos && s.flag (hrxP a) hrxCdr

/-- CLK_STAT.HOLD of a lane follows its two derived clocks (R173). -/
def holdBit (n : Lane) (s : State) : State :=
  s.setFlag 0x007 (clkHold n) (s.lanes[n].holdTx || s.lanes[n].holdRx)

/-- A derived clock whose source is lost enters holdover where the source has been good since the restart (R160). -/
def holdCheck (n : Lane) (after : Option Nat) (s : State) : State :=
  let one (rx : Bool) (s : State) : State :=
    let l := s.lanes[n]
    let good := if rx then l.goodRx || l.slewRx == 1 else l.goodTx || l.slewTx == 1
    let held := if rx then l.holdRx else l.holdTx
    if l.run && good && !held && !s.sourceOk n rx then
      let s := s.setLane n (fun l =>
        if rx then { l with holdRx := true, goodRx := true, slewRx := 0 } else { l with holdTx := true, goodTx := true, slewTx := 0 })
      latSpoil n (raiseC 18 (n + 8 * bit rx) after (holdBit n s))
    else s
  one true (one false s)

/-- The star-map counters of LFMn by name (R68, R407). -/
def cLost (n : Nat) : Nat := cLane n 10

/-- Bits lost on a line lane are counted (R22, R36). -/
def lostBits (n : Lane) (k : Nat) (s : State) : State := addCtr (cLost n) k s

/-! The feed of the capture units -/

/-- CAP_STAT, the state of a unit: 0 idle, 1 armed, 2 post-trigger, 3 done (R423). -/
def capStat : Fld := ⟨0x0C0, 0, 2⟩

/-- A receiver's samples reach every unit that captures from it, `make` giving them for a KIND (R413); the ticks take them. -/
def capFeed (kinds : List Nat) (inst : Nat) (make : Nat → List CapSample) (s : State) : State :=
  each (List.finRange 4) (fun (k : Fin 4) s =>
    let p := 0x018 + k.val
    let kind := s.fget p ⟨0x044, 0, 4⟩
    if (s.fget p capStat == 1 || s.fget p capStat == 2) && decide (s.fget p ⟨0x044, 4, 4⟩ = inst) && kinds.contains kind then
      s.setCap k (fun c => { c with feed := c.feed ++ make kind })
    else s) s

/-! The buffers ahead of the host transmitters -/

/-- The host bits that the buffer of a lane ahead of its host transmitters is held at, and the most it holds: the slip buffer of a locked receiver, the desynchroniser of a free one (R158, R162). -/
def elasticMid (free : Bool) : Nat := if free then 512 else 64
/-- The most that the buffer holds. -/
def elasticTop (free : Bool) : Nat := if free then 1023 else 127

/-- The fill of the buffer over the lane's host lanes (R158, R162). -/
def elasticFill (s : State) (n : Lane) : Nat := (s.hostsOf n).foldl (fun a (h : Host16) => a + s.hosts[h].buf.length) 0

/-- DESYNC_FILL of lane n (R173). -/
def desyncFillF (n : Nat) : Fld := ⟨0x050 + 4 * n, 0, 10⟩

/-- DESYNC_FILL shows the fill of a running free-mode lane, and 512 otherwise (R163, R173). -/
def desyncShow (n : Lane) (s : State) : State :=
  s.fset 0x007 (desyncFillF n) (if s.free n && s.lanes[n].run && !s.dusky n && !(s.hostsOf n).isEmpty then min 1023 (elasticFill s n) else 512)

/-- The buffer holds its middle fill, of substitute bits, nothing having been delivered (R151, R158, R163). -/
def elasticReset (n : Lane) (s : State) : State :=
  let hs := s.hostsOf n
  let k := elasticMid (s.free n) / max 1 hs.length
  desyncShow n (each hs (fun (h : Host16) s => s.setHost h (fun x => { x with buf := List.replicate k none })) (s.setLane n (fun l => { l with elastic := 0 })))

end Sys2Proof.Machine
end

