-- ==== Sys2Proof/Machine/Laser.lean ====
section
/-! DEFINITION. Laser safety: the states of the eight lasers, the value offered to each, trips, disables and forced conditions (R28, R230, R233 to R240). -/

namespace Sys2Proof.Machine

/-- Page LAS. -/
def lasP : Nat := 0x067

/-- LB_CTRL.EN of laser n (R257). -/
def lbEn (n : Nat) : Fld := ⟨0x040 + 4 * n, 0, 1⟩
/-- LB_CTRL.POLICY. -/
def lbPolicy (n : Nat) : Fld := ⟨0x040 + 4 * n, 2, 2⟩
/-- LB_CTRL.COMP_BAND. -/
def lbBand (n : Nat) : Fld := ⟨0x040 + 4 * n, 4, 3⟩
/-- LB_CTRL.MPD_RANGE. -/
def lbRange (n : Nat) : Fld := ⟨0x040 + 4 * n, 7, 2⟩
/-- LB_CTRL.SW_DIS. -/
def lbSwDis (n : Nat) : Fld := ⟨0x040 + 4 * n, 17, 1⟩
/-- LB_LIM.IB_MAX. -/
def lbMax (n : Nat) : Fld := ⟨0x060 + 4 * n, 0, 16⟩
/-- LB_STAT.STATE: 0 OFF, 1 ON, 2 DISABLED, 3 RETRY_WAIT, 4 LOCKED_OUT, 5 FORCED_OFF. -/
def lbState (n : Nat) : Fld := ⟨0x0A0 + 4 * n, 0, 3⟩
/-- LB_STAT.CAUSE. -/
def lbCause (n : Nat) : Fld := ⟨0x0A0 + 4 * n, 3, 3⟩
/-- LB_STAT.RETRIES. -/
def lbRetries (n : Nat) : Fld := ⟨0x0A0 + 4 * n, 6, 2⟩
/-- LB_STAT.CLAMP. -/
def lbClamp (n : Nat) : Fld := ⟨0x0A0 + 4 * n, 8, 1⟩
/-- LAS_STAT.VAUX_OK. -/
def lasVaux : Fld := ⟨0x0CC, 0, 1⟩
/-- LAS_STAT, TX_DIS asserted. -/
def lasTxDis : Fld := ⟨0x0CC, 1, 1⟩
/-- LAS_STAT, output n on. -/
def lasOn (n : Nat) : Fld := ⟨0x0CC, 8 + n, 1⟩

/-- The byte of TBLM at which COMP[n][b] lies (log entry 10). -/
def compOff (n b : Nat) : Nat := 13312 + 4 * (5 * n + b)

/-- An entry of `k` bytes of TBLM as a lookup reads it: 0 where its word is uncorrectable (R312). -/
def tblEntry (s : State) (off k : Nat) : Nat :=
  let a := 175 * 65536 + off
  if s.isUe (eccBase a) 4 then 0 else ofLE (s.fetchN a k)

/-- The value for laser n before it is held to IB_MAX: max(H_n + COMP[n][b], 0), b being the band in force (R233). -/
def lbRaw (s : State) (n : Lane) : Nat :=
  ((s.las[n].held.toNat : Int) + sx 16 (tblEntry s (compOff n (min 4 (s.ffget lasP (lbBand n)))) 2)).toNat

/-- B_n, the value that LAS offers to laser n (R233). -/
def lbValue (s : State) (n : Lane) : Nat := min (lbRaw s n) (s.fget lasP (lbMax n))

/-- The qualifier word of a code (R288). -/
def qualifier (code : Nat) : Nat := nth 0 [0x00FF, 0x0F0F, 0x3333, 0x5555] code

/-- Whether a flare of a code keys 100 %, `t` half cycles of REFCLK_HOST (3.2 ns) after its first LEAD began: eight slots of LEAD 1.2 ms at 50 %, MARK 0.2 ms, sixteen Manchester bits of two 50 µs chips, bit 15 first, and REST 3.0 ms (R288). -/
def flareFull (code t : Nat) : Bool :=
  let u := t % 1875000
  if 8 * 1875000 ≤ t then true
  else if u < 375000 then false
  else if u < 437500 then true
  else if u < 937500 then
    let chip := (u - 437500) / 15625
    tb (qualifier code) (15 - chip / 2) == (chip % 2 == 0)
  else true

/-- What a flare under way on lane n keys: the value frozen at its start, or half of it (R28, R288). DESIGN CHOICE, log entry 27: half of an odd code rounds down. -/
def flareKeyed (s : State) (n : Lane) : Nat :=
  let w := s.wmk[n]
  if flareFull w.flareCode (2 * s.since w.flareAt) then w.frozen else w.frozen / 2

/-- The bias code at output LBn: off unless the laser is ON; during a flare what its keying gives; otherwise B_n (R28, R239). -/
def lbOut (s : State) (n : Lane) : Nat :=
  if s.fget lasP (lbState n) ≠ 1 then 0
  else if s.wmk[n].flareOn then flareKeyed s n else lbValue s n

/-- The current of an LB output for a code, in 1/65,535 nA: 150 mA × code / 65,535 (R228). -/
def lbCurrent (code : Nat) : Nat := 150000000 * code

/-- The voltage of an AV output for a code, in 1/65,535 µV: 3.0 V × code / 65,535 (R228). -/
def avVolts (code : Nat) : Nat := 3000000 * code

/-- A condition of R230 above its last row holds for laser n: VAUX low or D_HK down, thermal shutdown, not yet enabled and strobed, low power, or HKA not serving lasers. -/
def lasForced (s : State) (n : Lane) : Bool :=
  !s.flag lasP lasVaux || !s.pwr.hkOn || s.shut || !(tb (s.rd (ra 0x062 0x0B4)) 0 && s.las[n].strobed)
    || s.fget 0x001 pwrState != 0 || s.bad 0x060 || s.bad 0x061

/-- The state of laser n, or the one that FORCED_OFF interrupted. -/
def lasLogical (s : State) (n : Lane) : Nat :=
  if s.fget lasP (lbState n) = 5 then s.las[n].under else s.fget lasP (lbState n)

/-- A flare under way on lane n is cut short, its end to be reported by FLARE_TX_END (R240, R289). -/
def flareCut (n : Lane) (s : State) : State :=
  s.setWmk n (fun w => { w with flareOn := false, flareWait := false })

/-- LB_STAT.STATE takes a value, with the output bit of LAS_STAT; leaving ON ends a flare. -/
def lasShow (n : Lane) (v : Nat) (s : State) : State :=
  let s := (s.fset lasP (lbState n) v).setFlag lasP (lasOn n) (v == 1)
  if v = 1 then s else flareCut n s

/-- Laser n takes a state, shown as FORCED_OFF while a condition of R230 holds; a laser that is OFF and has not been forced stays OFF (R239; log entry 12). -/
def lasSet (n : Lane) (v : Nat) (s : State) : State :=
  if lasForced s n && (v != 0 || s.fget lasP (lbState n) == 5) then
    lasShow n 5 (s.setLas n (fun l => { l with under := v }))
  else lasShow n v s

/-- Every laser is put in FORCED_OFF (R230, R239). -/
def lasForceAll (s : State) : State :=
  each (List.finRange 8) (fun n s => lasShow n 5 (s.setLas n (fun l => { l with under := lasLogical s n }))) s

/-- Lasers whose forced condition has ended take the state it interrupted, and ones whose condition has begun are forced (R239). -/
def lasSettle (s : State) : State := each (List.finRange 8) (fun n s => lasSet n (lasLogical s n) s) s

/-- A cause of R237 holds for laser n: SW_DIS, or TX_DIS where its mask bit is set. -/
def lasDisabled (s : State) (n : Lane) : Bool :=
  s.flag lasP (lbSwDis n) || (s.adac.txDis && tb (s.rd (ra lasP 0x0C0)) (16 + n))

/-- DISABLED is entered from ON, and from RETRY_WAIT where `asserted` a cause of R237 acts anew; it is left to ON when every cause has cleared (R237, R239, R240). -/
def lasDisCheck (asserted : Bool) (n : Lane) (s : State) : State :=
  let l := lasLogical s n
  if lasDisabled s n && (l == 1 || (asserted && l == 3)) then lasSet n 2 s
  else if !lasDisabled s n && l == 2 then lasSet n 1 s
  else s

/-- CLAMP follows the value, with event 472 at each rise; an error of the compensation word looked up is acted on (R233, R307, R309). -/
def clampCheck (n : Lane) (s : State) : State :=
  let s := ownerMet [(175, compOff n (min 4 (s.ffget lasP (lbBand n))) / 4)] s
  let now := decide (s.fget lasP (lbMax n) < lbRaw s n)
  let was := s.flag lasP (lbClamp n)
  let s := s.setFlag lasP (lbClamp n) now
  if now && !was then raise 472 n s else s

/-- CLAMP of every laser, after compensation codes have changed (R233). -/
def clampAll (s : State) : State := each (List.finRange 8) clampCheck s

/-- A trip of laser n: it acts on a laser that is ON, or that a disable of the same instant has just turned off (`tied`), logs its cause, and leads to a retry where POLICY leaves one, else to LOCKED_OUT (R239, R240). -/
def trip (n : Lane) (cause : Nat) (tied : Bool) (s : State) : State :=
  if !(s.fget lasP (lbState n) == 1 || (tied && s.fget lasP (lbState n) == 2)) then s
  else
    let p := s.fget lasP (lbPolicy n)
    let retry := p == 3 || (p != 0 && decide (s.fget lasP (lbRetries n) < 3))
    let s := (s.setLas n (fun l => { l with trips := l.trips + 1 })).fset lasP (lbCause n) cause
    let occ := s.nextOcc
    let s := raise (448 + n) cause (lasSet n (if retry then 3 else 4) s)
    if retry then s else raiseC (456 + n) (min 127 s.las[n].trips) (some occ) s

/-- The check of a published HKA result of MPD_n at the laser's range: MAX above MPD_HI × 256 trips with cause 1, MIN below MPD_LO × 256 while the output is at least a quarter of IB_MAX with cause 2 (R235, R240). -/
def lasCheck (n : Lane) (mn mx : Int) (tied : Bool) (s : State) : State :=
  let w := s.rd (ra lasP (0x080 + 4 * n))
  let s := s.setLas n (fun l => { l with due := false })
  if sx 16 w * 256 < mx then trip n 1 tied s
  else if mn < sx 16 (w / 65536) * 256 ∧ s.fget lasP (lbMax n) ≤ 4 * lbOut s n then trip n 2 tied s
  else s

/-- The photocurrent above which the fast comparator of laser n trips it, in 1/256 of the full scale of its range; a threshold of 0 is stored as 1 (R234). -/
def fastThr (s : State) (n : Nat) : Nat := max 1 (s.fget lasP ⟨0x040 + 4 * n, 9, 8⟩)

/-- FAST_TRIP (R234). -/
def execFastTrip (n : Lane) (tied : Bool) (s : State) : Host.Outcome State Fault Refusal := nxt (trip n 3 tied s)

/-- KEEP_TIMEOUT (R236). -/
def execKeepTimeout (n : Lane) (tied : Bool) (s : State) : Host.Outcome State Fault Refusal := nxt (trip n 4 tied s)

/-- RETRY_INTERVAL_END: a laser in RETRY_WAIT returns to ON, one more retry used, and from there to DISABLED where a cause of R237 holds (R239, R240). -/
def execRetryIntervalEnd (n : Lane) (s : State) : Host.Outcome State Fault Refusal :=
  nxt (if lasLogical s n = 3 then lasDisCheck false n (lasSet n 1 (s.fsat lasP (lbRetries n) 1)) else s)

/-- LASER_ON_10S: RETRIES clears after 10 s ON without a trip (R239). -/
def execLaserOn10s (n : Lane) (s : State) : Host.Outcome State Fault Refusal :=
  nxt (if s.fget lasP (lbState n) = 1 then
    (s.fset lasP (lbRetries n) 0).setLas n (fun l => { l with trips := 0 })
  else s)

/-- A write of LB_CTRL.EN: 1 turns a laser that is OFF to ON, 0 turns it OFF from every state (R239). -/
def lbEnWrite (n : Lane) (on : Bool) (s : State) : State :=
  let l := lasLogical s n
  let s := s.setFlag lasP (lbEn n) on
  if on then
    if l = 0 then lasDisCheck false n (lasSet n 1 (s.setLas n (fun l => { l with trips := 0 }))) else s
  else lasSet n 0 s

/-- LB_EN_WRITE (R239). -/
def execLbEnWrite (n : Lane) (on : Bool) (s : State) : Host.Outcome State Fault Refusal := nxt (lbEnWrite n on s)

/-- A write of LB_CTRL.SW_DIS (R237). -/
def swDisWrite (n : Lane) (dis : Bool) (s : State) : State := lasDisCheck dis n (s.setFlag lasP (lbSwDis n) dis)

/-- SW_DIS_WRITE (R237). -/
def execSwDisWrite (n : Lane) (dis : Bool) (s : State) : Host.Outcome State Fault Refusal := nxt (swDisWrite n dis s)

/-- CLR_FAULT: LOCKED_OUT is left to ON (R239, R240). -/
def clrFaultOp (n : Lane) (s : State) : State :=
  if lasLogical s n = 4 then lasDisCheck false n (lasSet n 1 (s.setLas n (fun l => { l with trips := 0 }))) else s

/-- CLR_FAULT (R239). -/
def execClrFault (n : Lane) (s : State) : Host.Outcome State Fault Refusal := nxt (clrFaultOp n s)

/-- TX_DIS_ASSERT: masked lasers are disabled and event 465 is raised (R237). -/
def execTxDisAssert (s : State) : Host.Outcome State Fault Refusal :=
  if s.adac.txDis then nxt s
  else
    let s := { s with adac := { s.adac with txDis := true } }.setFlag lasP lasTxDis true
    nxt (raise 465 0 (each (List.finRange 8) (fun n s => lasDisCheck (tb (s.rd (ra lasP 0x0C0)) (16 + n.val)) n s) s))

/-- TX_DIS_DEASSERT (R237). -/
def execTxDisDeassert (s : State) : Host.Outcome State Fault Refusal :=
  let s := { s with adac := { s.adac with txDis := false } }.setFlag lasP lasTxDis false
  nxt (each (List.finRange 8) (lasDisCheck false) s)

end Sys2Proof.Machine
end

