-- ==== Sys2Proof/Machine/Adac.lean ====
section
/-! DEFINITION. Auxiliary DAC outputs, dither generators and the peripheral I2C ports (R228 to R232, R254 to R256). -/

namespace Sys2Proof.Machine

/-- Page ADAC. -/
def adacP : Nat := 0x062
/-- Page NCOk. -/
def ncoP (k : Nat) : Nat := 0x063 + k

/-- A WAIT ends: C is 1 on timeout (R194). -/
def waitEnd (e : Eng) (c : Bool) (s : State) : State :=
  s.setEng e (fun g => { g with phase := .running, flg := setC g.flg c })

/-- Whether an engine waits in a WAIT (R194). -/
def waits (s : State) (e : Eng) : Bool :=
  match s.eng[e].phase with
  | .waiting _ => true
  | _ => false

/-- A wait source has occurred: every WAIT on it ends with C = 0 (R194). -/
def waitHit (x : Nat) (s : State) : State :=
  each ((List.finRange 5).filter (fun e => s.eng[e].phase == .waiting x)) (fun e s => waitEnd e false s) s

/-- The strobe of one group: every holding register of the group is copied to its output in one action, and waits for it end (R194, R229). -/
def strobeGroup (g : Nat) (s : State) : State :=
  let s := each (List.finRange 8) (fun n s =>
    if s.fget adacP ⟨0x0A0, 2 * n, 2⟩ == g then
      clampCheck n (s.setLas n (fun l => { l with held := BitVec.ofNat 16 (s.rd (ra adacP (0x040 + 4 * n))), strobed := true }))
    else s) s
  let s := each (List.range 16) (fun m s =>
    if s.fget adacP ⟨0x0A4, 2 * m, 2⟩ == g then
      let v := s.rd (ra adacP (0x060 + 4 * m)) % 65536
      { s with adac := { s.adac with
          held := kput 0 s.adac.held m v, code := kput 0 s.adac.code m v, strobed := s.adac.strobed ||| BitVec.ofNat 16 (2 ^ m) } }
    else s) s
  waitHit (2 + g) (lasSettle s)

/-- The strobe of the groups of a mask (R229). -/
def strobe (mask : Nat) (s : State) : State := each ((List.range 4).filter (fun g => tb mask g)) strobeGroup s

/-- ADAC_STROBE (R229). -/
def execAdacStrobe (groups : BitVec 4) (s : State) : Host.Outcome State Fault Refusal := nxt (strobe groups.toNat s)

/-- LDAC_N_FALL: a low of 100 ns or more strobes the masked groups, one below 50 ns does not, and between the two the spec leaves it open (R229; log entry 3). -/
def execLdacNFall (lowNs : Nat) (s : State) : Host.Outcome State Fault Refusal :=
  let mask := bits (s.rd (ra adacP 0x0B4)) 4 4
  if 100 ≤ lowNs then nxt (strobe mask s)
  else if lowNs < 50 then nxt s
  else
    let (b, s) := s.draw 1
    nxt (if b = 1 then strobe mask s else s)

/-- A write of HOLD_LB_0n; it restarts the keep timer, whose end is KEEP_TIMEOUT (R229, R236). -/
def holdLbWrite (n : Lane) (v : Nat) (s : State) : State := s.wr (ra adacP (0x040 + 4 * n)) (v % 65536)

/-- HOLD_LB_WRITE (R236). -/
def execHoldLbWrite (n : Lane) (v : Word) (s : State) : Host.Outcome State Fault Refusal := nxt (holdLbWrite n v.toNat s)

/-- The kind of an AV output's state (R230): collapsed with VAUX, driven to 0 V, high impedance, or a code. -/
inductive AvOut where
  | collapsed | zero | highZ
  | code (c : Nat)
  deriving DecidableEq, Repr

/-- The NCO that dithers output AV_m, if any (R231, R255). -/
def avNco (s : State) (m : Nat) : Option (Fin 4) :=
  let f := if m < 8 then s.fget adacP ⟨0x0A8, 3 * m, 3⟩ else s.fget adacP ⟨0x0AC, 3 * (m - 8), 3⟩
  if f = 0 ∨ 4 < f then none else some ⟨(f - 1) % 4, Nat.mod_lt _ (by decide)⟩

/-- The generators' clock runs: neither low power nor shutdown stops them (R230). -/
def ncoClocked (s : State) : Bool := s.fget 0x001 pwrState == 0 && !s.shut && s.pwr.hkOn

/-- NCOk runs: EN = 1 and its clock runs (R230, R232). -/
def ncoRuns (s : State) (k : Fin 4) : Bool := tb (s.rd (ra (ncoP k) 0x040)) 0 && ncoClocked s

/-- Whether output AV_m is dithered: its field names an NCO that runs, and HKA serves (R230, R231). -/
def dithered (s : State) (m : Nat) : Bool :=
  (match avNco s m with | some k => ncoRuns s k | none => false) && !s.bad 0x060 && !s.bad 0x061

/-- What output AV_m shows, `low` telling whether VAUX is below 2.9 V now (R230). -/
def avOut (s : State) (low : Bool) (m : Nat) : AvOut :=
  if low || !s.pwr.hkOn then .collapsed
  else if s.shut then .zero
  else if !(tb (s.rd (ra adacP 0x0B4)) 0 && s.adac.strobed.getLsbD m) then .highZ
  else .code (if dithered s m then kget 0 s.adac.code m else kget 0 s.adac.held m)

/-! Dither generators -/

/-- The byte of TBLM at which entry i of NCOk's table lies (log entry 10). -/
def ncoOff (k i : Nat) : Nat := 5120 + 2048 * k + 2 * i

/-- The byte of TBLM of the entry that a phase addresses: bits [29:20], mirrored in quadrants 1 and 3 (R231). -/
def ncoAt (k : Fin 4) (ph : Nat) : Nat := ncoOff k (if bits ph 30 2 % 2 = 1 then 1023 - bits ph 20 10 else bits ph 20 10)

/-- The sample of NCOk at a phase: the entry addressed, negative in quadrants 2 and 3; 0 while EN = 0 (R231, R232). -/
def ncoSample (s : State) (k : Fin 4) (ph : Nat) : Int :=
  if tb (s.rd (ra (ncoP k) 0x040)) 0 then
    let v : Int := tblEntry s (ncoAt k ph) 2
    if 2 ≤ bits ph 30 2 then -v else v
  else 0

/-- The table words of NCOk that its lookups at some phases have met (R307, R309). -/
def ncoMet (k : Fin 4) (phases : List Nat) (s : State) : State :=
  if tb (s.rd (ra (ncoP k) 0x040)) 0 then ownerMet ((phases.map (fun ph => (175, ncoAt k ph / 4))).eraseDups) s else s

/-- The phase of NCOk advances by FTW in force at every clock cycle, whatever EN is (R231). -/
def ncoAdvance (k : Fin 4) (cycles : Nat) (s : State) : State :=
  if ncoClocked s then
    { s with adac := { s.adac with
        phase := s.adac.phase.set k (BitVec.ofNat 32 (s.adac.phase[k].toNat + s.adac.ftw[k].toNat * cycles)) } }
  else s

/-- AV_SAT of output m: a dithered code has saturated within the last 1 ms, 156,250 cycles of REFCLK_HOST (R255). -/
def avSatNow (s : State) (m : Nat) : Bool :=
  let t := kget 0 s.adac.satAt m
  t != 0 && decide (s.since (t - 1) < 156250)

/-- ADAC_STAT as it reads (R255). -/
def adacStat (s : State) : Nat := (List.range 16).foldl (fun a m => a + bit (avSatNow s m) * 2 ^ m) 0

/-- The code of a dithered output before it is saturated: HOLD + round(AMP × s / 65,536), s being the generator's sample now (R231). -/
def avSum (s : State) (k : Fin 4) (m : Nat) : Int :=
  ((kget 0 s.adac.held m : Nat) : Int) + roundHalfUp ((s.adac.amp[k].toNat : Int) * ncoSample s k s.adac.phase[k].toNat) 65536

/-- AV_DITHER_UPDATE: `cycles` housekeeping clock cycles after the last update of the same generator, an output that an NCO dithers takes its code, and a saturated one sets AV_SAT, with event 469 at its rise (R231, R255). -/
def execAvDitherUpdate (m : Fin 16) (cycles : Nat) (s : State) : Host.Outcome State Fault Refusal :=
  nxt (match avNco s m with
    | none => s
    | some k =>
      let s := ncoAdvance k cycles s
      if !dithered s m then s
      else
        let s := ncoMet k [s.adac.phase[k].toNat] s
        let x := avSum s k m
        let was := avSatNow s m
        let s := { s with adac := { s.adac with code := kput 0 s.adac.code m (clampI 0 65535 x).toNat } }
        if 0 ≤ x ∧ x ≤ 65535 then s
        else
          let s := { s with adac := { s.adac with satAt := kput 0 s.adac.satAt m (s.cycles + 1) } }
          if was then s else raise 469 m s)

/-- A write of NCO_CTRL.RESTART: the phase is PHASE0 at the same cycle here and in every NCO whose GANG bit is 1 (R232). -/
def ncoRestartOp (k : Fin 4) (s : State) : State :=
  each (List.finRange 4) (fun j s =>
    if j == k || tb (s.rd (ra (ncoP j) 0x040)) 2 then
      { s with adac := { s.adac with phase := s.adac.phase.set j (BitVec.ofNat 32 (s.rd (ra (ncoP j) 0x04C))) } }
    else s) s

/-- NCO_RESTART (R232). -/
def execNcoRestart (k : Fin 4) (s : State) : Host.Outcome State Fault Refusal := nxt (ncoRestartOp k s)

/-- NCO_WRAP_APPLY: `cycles` clock cycles after the generator's last update its phase wraps, and FTW and AMP as written take force (R232). -/
def execNcoWrapApply (k : Fin 4) (cycles : Nat) (s : State) : Host.Outcome State Fault Refusal :=
  let p : Nat := s.adac.phase[k].toNat
  let f : Nat := s.adac.ftw[k].toNat
  let w : Bool := decide (0 < cycles ∧ (p + f * (cycles - 1)) / 4294967296 < (p + f * cycles) / 4294967296)
  nxt (if ncoClocked s && w then
    let s := ncoAdvance k cycles s
    { s with adac := { s.adac with
        ftw := s.adac.ftw.set k (BitVec.ofNat 32 (s.rd (ra (ncoP k) 0x044))),
        amp := s.adac.amp.set k (BitVec.ofNat 16 (s.rd (ra (ncoP k) 0x048))) } }
  else s)

/-- NCO_STAT as it reads: RUN, and PEND while a written FTW or AMP waits (R232, R256). -/
def ncoStat (s : State) (k : Fin 4) : Nat :=
  bit (ncoRuns s k) + 2 * bit (s.adac.ftw[k].toNat != s.rd (ra (ncoP k) 0x044) || s.adac.amp[k].toNat != s.rd (ra (ncoP k) 0x048) % 65536)

/-- The bytes of one ECC word of TBLM with `bs` in place of those from an offset on, written whole (R298). -/
def tblWrite (off : Nat) (bs : List Byte) (s : State) : State :=
  let a := 175 * 65536 + off
  let b := eccBase a
  let old := s.fetchN b 4
  memWrite b (old.take (a - b) ++ bs ++ old.drop (a - b + bs.length)) s

/-- TBL_ADDR advances by 1 modulo 1,024 after each access of TBL_DATA (R256). -/
def tblStep (k : Fin 4) (s : State) : State := s.fadd (ncoP k) ⟨0x050, 0, 10⟩ 1

/-- A write of TBL_DATA: it sets a table entry only while EN = 0, and is otherwise discarded with cause 17 (R232). -/
def ncoTblWrite (k : Fin 4) (v : Nat) (s : State) : State :=
  let i := s.fget (ncoP k) ⟨0x050, 0, 10⟩
  tblStep k (if tb (s.rd (ra (ncoP k) 0x040)) 0 then ignored (ncoP k) 0x054 17 s else tblWrite (ncoOff k i) (bytesLE 2 v) s)

/-- NCO_TBL_WRITE (R232). -/
def execNcoTblWrite (k : Fin 4) (v : Word) (s : State) : Host.Outcome State Fault Refusal := nxt (ncoTblWrite k v.toNat s)

/-! Peripheral I2C ports -/

/-- A register of port p. -/
def mi2c (p : Fin 2) (off : Nat) : Nat := ra adacP (off + 0x20 * p)

/-- MI2C_STAT with BUSY, DONE, ERR, BYTE and REFUSED (R255). -/
def mi2cStat (busy done : Bool) (err byte : Nat) (refused : Bool) : Nat :=
  bit busy + 2 * bit done + 4 * (err % 4) + 16 * (byte % 8) + 128 * bit refused

/-- A START of port p: refused while BUSY, while the port is off, or where NWR or NRD exceeds 4 (R254, R255; log entry 13). -/
def mi2cStartOp (p : Fin 2) (s : State) : State :=
  let st := s.rd (mi2c p 0x110)
  let c := s.rd (mi2c p 0x104)
  if tb st 0 || !tb (s.rd (mi2c p 0x100)) 0 || decide (4 < bits c 7 3) || decide (4 < bits c 10 3) then
    s.wr (mi2c p 0x110) (setBits st 7 1 1)
  else s.wr (mi2c p 0x110) (mi2cStat true false 0 0 false)

/-- MI2C_START (R254). -/
def execMi2cStart (p : Fin 2) (s : State) : Host.Outcome State Fault Refusal := nxt (mi2cStartOp p s)

/-- What the controller of a port puts on its bus, in order (R254): conditions, bytes sent, and bytes received with its acknowledgement. -/
inductive BusItem where
  | start | restart | stop | clock
  | send (b : Byte)
  | recv (ack : Bool)
  deriving DecidableEq, Repr

/-- The bytes that a transaction sends, the address with write first and the address with read last where it reads, with the index that BYTE gives each (R254; log entry 13). -/
def mi2cSent (s : State) (p : Fin 2) : List Byte :=
  let c := s.rd (mi2c p 0x104)
  let a := 2 * bits c 0 7
  [BitVec.ofNat 8 a] ++ (bytesLE 4 (s.rd (mi2c p 0x108))).take (bits c 7 3) ++ (if bits c 10 3 = 0 then [] else [BitVec.ofNat 8 (a + 1)])

/-- A port's transaction on its bus as MI2C_CMD and MI2C_WDATA ask for it: all of it, or up to the byte that was not acknowledged, and STOP (R254). -/
def mi2cBus (s : State) (p : Fin 2) (nackAt : Option Nat) : List BusItem :=
  let c := s.rd (mi2c p 0x104)
  let sent := mi2cSent s p
  let upTo := match nackAt with | some k => k + 1 | none => sent.length
  let items := (sent.zip (List.range sent.length)).flatMap (fun x => (if x.2 = bits c 7 3 + 1 then [BusItem.restart] else []) ++ [BusItem.send x.1])
  let last := bits c 10 3
  let reads := if nackAt.isSome then [] else (List.range last).map (fun i => BusItem.recv (i + 1 != last))
  [.start] ++ items.take (if bits c 7 3 + 1 < upTo then upTo + 1 else upTo) ++ reads ++ [.stop]

/-- What frees a stuck bus: nine clocks and a STOP (R254). -/
def mi2cFree : List BusItem := List.replicate 9 .clock ++ [.stop]

/-- The end of a transaction with its ERR, BYTE and received bytes; an error raises MI2Cp_ERR (R254, R255). -/
def mi2cEnd (p : Fin 2) (err byte : Nat) (rdata : List Byte) (s : State) : State :=
  let n := bits (s.rd (mi2c p 0x104)) 10 3
  let s := (s.wr (mi2c p 0x10C) (ofLE (rdata.take n))).wr (mi2c p 0x110) (mi2cStat false true err byte (tb (s.rd (mi2c p 0x110)) 7))
  if err = 0 then s else raise (470 + p) err s

/-- MI2C_DONE: the transaction ends, with the bytes received or with the byte that was not acknowledged: an address, which is byte 0 or the one after the data, or data (R254; log entry 13). -/
def execMi2cDone (p : Fin 2) (nackAt : Option Nat) (rdata : List Byte) (s : State) : Host.Outcome State Fault Refusal :=
  if !tb (s.rd (mi2c p 0x110)) 0 then nxt s
  else match nackAt with
    | none => nxt (mi2cEnd p 0 0 rdata s)
    | some k => nxt (mi2cEnd p (if k = 0 ∨ k = bits (s.rd (mi2c p 0x104)) 7 3 + 1 then 1 else 2) k [] s)

/-- MI2C_STUCK: SCL low for more than 25 ms ends the transaction with ERR 3, `rdata` being what it has received, and the port frees the bus (R254, R255). -/
def execMi2cStuck (p : Fin 2) (rdata : List Byte) (s : State) : Host.Outcome State Fault Refusal :=
  nxt (if tb (s.rd (mi2c p 0x110)) 0 then mi2cEnd p 3 0 rdata s else s)

end Sys2Proof.Machine
end

