-- ==== Sys2Proof/Machine/CmisMap.lean ====
section
/-! DEFINITION. The CMIS memory map as the device holds it: its bytes, the module state and the data path states, the monitors with their flags, and the configuration status (R153, R154, R366, R368, R369, R371, R388, R453). The places of bytes and bits are those of CMIS 5.2 (log entry 43). -/

namespace Sys2Proof.Machine

/-! Bytes -/

/-- What a CMIS byte that nothing has written reads as: LowPwrAllowRequestHW is 1 (log entry 24). -/
def cmisDef (a : Nat) : Byte := if a = 26 then 0x40 else 0

/-- A CMIS byte as held. -/
def cmisByte (s : State) (a : Nat) : Byte := kget (cmisDef a) s.mgmt.cmis a

/-- A CMIS byte takes a value. -/
def cmisPut (a : Nat) (b : Byte) (s : State) : State := { s with mgmt := { s.mgmt with cmis := kput (cmisDef a) s.mgmt.cmis a b } }

/-- The key of byte o of a page of a bank: bytes 0 to 127 are lower memory, pages 00h to 02h have no banks, pages 10h, 11h, 13h and 14h have two, and no other page outside the vendor windows exists (R366). -/
def cmisKey (bank page o : Nat) : Option Nat :=
  if o < 128 then some o
  else if page < 3 then some (256 * page + o)
  else if (page = 0x10 ∨ page = 0x11 ∨ page = 0x13 ∨ page = 0x14) ∧ bank < 2 then some (256 * (256 * bank + page) + o)
  else none

/-- The key of byte o of page 10h and of page 11h of a bank. -/
def page10 (bank o : Nat) : Nat := 256 * (256 * bank + 0x10) + o
/-- The key of a byte of page 11h. -/
def page11 (bank o : Nat) : Nat := 256 * (256 * bank + 0x11) + o

/-- A nibble of a per-lane control or status: lane i of a byte array of page keys from a. -/
def cmisNibble (s : State) (a i : Nat) : Nat := bits (cmisByte s (a + i / 2)).toNat (4 * (i % 2)) 4

/-- A nibble takes a value. -/
def cmisNibblePut (a i v : Nat) (s : State) : State :=
  cmisPut (a + i / 2) (BitVec.ofNat 8 (setBits (cmisByte s (a + i / 2)).toNat (4 * (i % 2)) 4 v)) s

/-! Module state -/

/-- Page SEC. -/
def secP : Nat := 0x004
/-- SEC_STAT.BOOT_SLOT (R446): 0 = A, 1 = B, 2 = download, 3 = none. -/
def bootSlot : Fld := ⟨0x040, 0, 2⟩

/-- Whether a macro that the device needs is beyond repair: SHTM, EVTM or TBLM, but not one that an in-service test has redirected (R222, R225). -/
def neededLost (s : State) : Bool :=
  (List.range 176).any (fun m => (regionOf m == 3 || regionOf m == 5 || regionOf m == 6) && s.blockGone m)

/-- The device holds in CMIS ModuleFault (R358, R368, R450). -/
def moduleFault (s : State) : Bool :=
  s.shut || s.pwr.coreHeld || (s.boot.ready && (s.fget secP bootSlot == 3 || neededLost s))

/-- The CMIS module state: 1 ModuleLowPwr, 2 ModulePwrUp, 3 ModuleReady, 4 ModulePwrDn, 5 ModuleFault (R368, R452). -/
def moduleState (s : State) : Nat :=
  if moduleFault s then 5
  else match s.fget 0x001 pwrState with
    | 0 => if s.mgmt.allowed then 3 else 1
    | 1 => 4
    | 2 => 1
    | _ => 2

/-- The module-state-changed flag of lower memory is set (R453). -/
def stateChanged (s : State) : State := cmisPut 8 (cmisByte s 8 ||| 1) s

/-! Data paths -/

/-- A data path's state for host lane h: 1 DPDeactivated, 2 DPInit, 3 DPDeinit, 4 DPActivated, 7 DPInitialized, with the laser not ON (R368). -/
def dpState (s : State) (h : Host16) : Nat :=
  match s.laneOf h with
  | none => 1
  | some n =>
    let ps := [lrxP n, ltxP n, lfmP n, hrxP h, htxP h]
    if (cmisByte s (page10 (h.val / 8) 128)).getLsbD (h.val % 8) || ps.any (s.parked ·) then 1
    else if ps.any (fun p => s.fget p pgPark == 1) then 3
    else if s.presses.any (fun x => ps.any (fun p => decide (p ∈ x.pages)) || decide (n.val ∈ x.maps))
        || ps.any (fun p => s.fget p pgPark == 3) || s.flag 0x001 (pwrWaking n) || !s.lanes[n].run || s.cal[n].fg
        || (!s.dusky n && s.fget (lfmP n) lfmFstate != 2) then 2
    else if s.fget lasP (lbState n) = 1 then 4
    else 7

/-- The flags Tx LOS, Tx CDR LOL, Rx LOS and Rx CDR LOL of a mapped host lane, 0 to 3, from HRX and from the line lane's LRX (R154). -/
def dpFlag (s : State) (k : Nat) (h : Host16) : Bool :=
  match s.laneOf h with
  | none => false
  | some n =>
    match k with
    | 0 => s.flag (hrxP h) hrxLos
    | 1 => !s.flag (hrxP h) hrxCdr
    | 2 => s.flag (lrxP n) lrxLos
    | _ => !s.flag (lrxP n) lrxCdr

/-- A byte of one bit for each host lane of a bank. -/
def perHost (bank : Nat) (f : Host16 → Bool) : Nat :=
  (List.range 8).foldl (fun a i => a + bit (f (Fin.ofNat 16 (8 * bank + i))) * 2 ^ i) 0

/-- The configuration status of host lanes takes a code: 1 ConfigSuccess, 2 ConfigRejected, 3 InvalidAppSel, 5 InvalidSI, 6 LanesInUse, 7 PartialDataPath, 12 ConfigInProgress (R369). -/
def cfgStatus (hosts : List Nat) (v : Nat) (s : State) : State :=
  each hosts (fun h s => cmisNibblePut (page11 (h / 8) 202) (h % 8) v s) s

/-! Monitors -/

/-- A flag byte gains bits; flags stay until they are read. -/
def flagOr (a v : Nat) (s : State) : State := cmisPut a (cmisByte s a ||| BitVec.ofNat 8 v) s

/-- A 16-bit value of CMIS bytes, the high byte first. -/
def cmis16 (s : State) (a : Nat) : Nat := (cmisByte s a).toNat * 256 + (cmisByte s (a + 1)).toNat

/-- A 16-bit value is held in CMIS bytes. -/
def cmis16Put (a v : Nat) (s : State) : State := cmisPut (a + 1) (BitVec.ofNat 8 v) (cmisPut a (BitVec.ofNat 8 (v / 256)) s)

/-- The module temperature in 1/256 °C, two's complement: BAND_T (R352, R366). -/
def cmisTemp (s : State) : Nat := s.rd (ra 0x002 0x044) % 65536 * 16 % 65536

/-- Which of four limits a value has crossed, the thresholds of page 02h from byte o in the order high alarm, low alarm, high warning, low warning (R366). -/
def limits (s : State) (o : Nat) (v : Int) (read : Nat → Int) : Nat :=
  let t (i : Nat) : Int := read (cmis16 s (256 * 2 + o + 2 * i))
  bit (decide (t 0 < v)) + 2 * bit (decide (v < t 1)) + 4 * bit (decide (t 2 < v)) + 8 * bit (decide (v < t 3))

/-- A value that an input gives, or a free value of 16 bits where the spec names none (log entries 3, 45). -/
def orDraw (v : Option Nat) (s : State) : Nat × State :=
  match v with
  | some v => (min 65535 v, s)
  | none => s.draw 16

/-- The Tx bias monitor of lane n in units of 2 µA: the current at output LBn (R228, R366; log entry 45). -/
def biasMonitor (s : State) (n : Nat) : Nat := lbCurrent (lbOut s (Fin.ofNat 8 n)) / (65535 * 2000)

/-- A monitor of one lane after a twilight round takes a value, free where none is given, and its flags compare it (R366; log entry 45). -/
def laneMonitor (val flg thr : Nat) (given : Option Nat) (n : Nat) (s : State) : State :=
  let (v, s) := orDraw given s
  let s := cmis16Put (page11 0 val + 2 * n) v s
  let f := limits s thr (v : Int) (fun x => (x : Int))
  each (List.range 4) (fun i s => if tb f i then flagOr (page11 0 flg + i) (2 ^ n) s else s) s

/-- The end of a twilight round: the supply, `vaux` in units of 100 µV where the round has read VAUX, and the lanes' monitors take their values, and the warning and alarm flags compare them and the temperature with page 02h (R366). -/
def cmisRound (vaux : Option Nat) (s : State) : State :=
  if !s.pwr.coreOn || s.shut || !s.boot.ready then s
  else
    let (v, s) := orDraw vaux s
    let s := cmis16Put 16 v s
    let s := flagOr 9 (limits s 128 (sx 16 (cmisTemp s)) (sx 16 ·) + 16 * limits s 136 (v : Int) (fun x => (x : Int))) s
    each (List.range 8) (fun n s => laneMonitor 186 149 192 none n (laneMonitor 170 143 184 (some (biasMonitor s n)) n (laneMonitor 154 139 176 none n s))) s

/-! Flags and INT_N -/

/-- A flag byte of page 11h as it stands: the four of R154 show their conditions, others what is held. -/
def flagByte (s : State) (bank o : Nat) : Nat :=
  match o with
  | 136 => perHost bank (dpFlag s 0)
  | 137 => perHost bank (dpFlag s 1)
  | 147 => perHost bank (dpFlag s 2)
  | 148 => perHost bank (dpFlag s 3)
  | _ => (cmisByte s (page11 bank o)).toNat

/-- An unmasked CMIS flag is set: bytes 8 to 11 under masks 31 to 34, and bytes 134 to 152 of page 11h under masks 213 to 231 of page 10h (R371, R388). -/
def cmisInt (s : State) : Bool :=
  (List.range 4).any (fun i => (cmisByte s (8 + i) &&& ~~~cmisByte s (31 + i)) != 0)
    || (List.range 2).any (fun b => (List.range 19).any (fun i =>
      (BitVec.ofNat 8 (flagByte s b (134 + i)) &&& ~~~cmisByte s (page10 b (213 + i))) != 0))

end Sys2Proof.Machine
end

