-- ==== Sys2Proof/Machine/Hk.lean ====
section
/-! DEFINITION. Housekeeping converters: the filter chain from modulator bits to outputs, sequences, guard and host requests, starts of conversions, and the result slots (R241 to R253, R260 to R273). The end of a conversion is in HkDone. -/

namespace Sys2Proof.Machine

/-- The page of converter b: 0 HKA, 1 HKB. -/
def hkP (b : Fin 2) : Nat := 0x060 + b

/-- HK_STAT fields (R258). -/
def hkEntryF : Fld := ⟨0x08C, 0, 4⟩
/-- HK_STAT, guard in progress. -/
def hkGuardF : Fld := ⟨0x08C, 4, 1⟩
/-- HK_STAT, host request in progress. -/
def hkHostF : Fld := ⟨0x08C, 5, 1⟩
/-- HK_STAT, this converter runs the twilight round. -/
def hkTwiF : Fld := ⟨0x08C, 6, 1⟩
/-- HK_STAT.OVERRUN. -/
def hkOverF : Fld := ⟨0x08C, 8, 8⟩
/-- HK_STAT.GUARD_DROP. -/
def hkDropF : Fld := ⟨0x08C, 16, 8⟩
/-- REQ_CTRL.BUSY. -/
def hkBusyF : Fld := ⟨0x088, 1, 1⟩
/-- REQ_CTRL.REFUSED. -/
def hkRefusedF : Fld := ⟨0x088, 2, 1⟩

/-- Star-map counters of converter b: 0 HK_INVALID, 1 HK_SAT_OUT, 2 HK_SYNC (R407). -/
def cHk (b : Fin 2) (j : Nat) : Nat := 0x00030 + 3 * b + j

/-! The filter chain -/

/-- The modulo-2^22 registers of the CIC (R263). -/
def m22 (x : Int) : Nat := (x % 4194304).toNat

/-- One modulator bit through the four integrators, taken as −1 or +1 (R260, R263). -/
def integrate (l : List Nat) (b : Bool) : List Nat :=
  let x : Int := if b then 1 else -1
  (l.foldl (fun (acc : List Nat × Int) (i : Nat) => let v := m22 ((i : Int) + acc.2); (acc.1 ++ [v], (v : Int))) (([] : List Nat), x)).1

/-- The four combs on the last integrator: their next contents and the CIC output (R263). -/
def combs (l : List Nat) (x : Nat) : List Nat × Int :=
  let r := l.foldl (fun (acc : List Nat × Nat) (d : Nat) => (acc.1 ++ [acc.2], m22 ((acc.2 : Int) - (d : Int)))) (([] : List Nat), x)
  (r.1, sx 22 r.2)

/-- How the stages round: native mode half up, COMPAT truncating after a shift (R263, R265). -/
structure FcMode where
  compat : Bool
  shCic : Nat
  shHb : Nat
  shFir : Nat

/-- FC_CTRL of converter b (R273). -/
def fcMode (s : State) (b : Fin 2) : FcMode :=
  let w := s.rd (ra (hkP b) 0x1E4)
  { compat := tb w 1, shCic := bits w 2 3, shHb := bits w 5 3, shFir := bits w 8 3 }

/-- A sum divided by 2^n as the mode rounds it, and shifted further in COMPAT mode (R263, R265). -/
def fcRound (m : FcMode) (n sh : Nat) (x : Int) : Int :=
  if m.compat then x / ((2 ^ n : Nat) : Int) / ((2 ^ sh : Nat) : Int) else roundHalfUp x (2 ^ n)

/-- The DC gain of a set of coefficient codes in 1/2^19: 2 × Σ h_0 … h_30 + h_31 (R266). -/
def dcGain (h : Nat → Nat) : Int := 2 * sumI ((List.range 31).map (fun i => sx 20 (h i))) + sx 20 (h 31)

/-- The vendor's code of h_i, of a set whose DC gain is exactly 1.0 (R266): the implementation's own, or, were that not so, a set that has it. -/
def vendorCoef (i : Nat) : Nat :=
  if dcGain (fun i => (Config.vendorTap i).toNat) = 524288 then (Config.vendorTap i).toNat
  else if i = 30 then 131072 else if i = 31 then 262144 else 0

/-- Coefficient h_i of a bank, as a 20-bit code, in a table whose unlisted entries are the vendor's (R266). -/
def coefOf (t : KMap Nat) (bank i : Nat) : Nat := kget (vendorCoef i) t (32 * bank + i)

/-- A tap of the half-band filter: i and 22 − i share a coefficient (R260, R262). -/
def hbTap (i : Nat) : Int := Config.hbCoef (min i (22 - i))

/-- The tap of the compensating filter: i and 62 − i share a coefficient (R266). -/
def firTap (t : KMap Nat) (bank i : Nat) : Int := sx 20 (coefOf t bank (if i ≤ 31 then i else 62 - i))

/-- The sum of products of taps and a history, newest first. -/
def dot (tap : Nat → Int) : Nat → List Int → Int
  | _, [] => 0
  | i, x :: r => tap i * x + dot tap (i + 1) r

/-- A half-band output in its 24-bit register, which it cannot overflow (R260, R263). -/
def hbOut (m : FcMode) (hist : List Int) : Int := sx 24 (fcRound m Config.hbShift m.shHb (dot hbTap 0 hist) % 16777216).toNat

/-- One CIC output and what follows it: every second makes a half-band output (R260). -/
def fcStep (m : FcMode) (f : FiltSt) (odd : Bool) (bs : List Bool) : FiltSt :=
  let int := bs.foldl integrate f.int
  let (comb, y) := combs f.comb (int.getLastD 0)
  let y := if m.compat then y / ((2 ^ m.shCic : Nat) : Int) else y
  let hb := (y :: f.hb).take 23
  let fir := if odd then (hbOut m hb :: f.fir).take 63 else f.fir
  { int := int, comb := comb, hb := hb, fir := fir }

/-- The output code of 256 modulator bits, whether it saturated, and the histories after it (R260, R263, R265). -/
def fcOutput (m : FcMode) (live : KMap Nat) (bank : Nat) (f : FiltSt) (bs : List Bool) : Int × Bool × FiltSt :=
  let f := ((chunk 32 8 bs).zip (List.range 8)).foldl (fun f p => fcStep m f (p.2 % 2 == 1) p.1) f
  let v := fcRound m 19 m.shFir (dot (firTap live bank) 0 f.fir)
  (clampI (-8388608) 8388607 v, decide (v < -8388608 ∨ 8388607 < v), f)

/-- The outputs of a stream of modulator bits, 256 for each (R261). -/
def fcOutputs (m : FcMode) (live : KMap Nat) (bank : Nat) : List (List Bool) → FiltSt → List (Int × Bool) × FiltSt
  | [], f => ([], f)
  | c :: r, f =>
    let (v, sat, f) := fcOutput m live bank f c
    let (l, f) := fcOutputs m live bank r f
    ((v, sat) :: l, f)

/-! Entries and starts -/

/-- Whether an input code is not reserved (R241). -/
def inputOk (c : Nat) : Bool :=
  c < 0x46 || (0x48 ≤ c && c < 0x4E) || (0x50 ≤ c && c < 0x56) || (0x60 ≤ c && c < 0x66) || (0x68 ≤ c && c < 0x72) || c == 0x7F

/-- Converter b runs the twilight round: HKB always, HKA in its place (R222, R246). -/
def twilight (s : State) (b : Fin 2) : Bool := b == 1 || s.flag 0x060 hkTwiF

/-- The page whose entries converter b runs (R246). -/
def seqPage (s : State) (b : Fin 2) : Nat := if twilight s b then 0x061 else 0x060

/-- A sequence entry as converter b runs it (R244). -/
def hkEntry (s : State) (b : Fin 2) (e : Nat) : Nat := s.rd (ra (seqPage s b) (0x040 + 4 * (e % 16)))

/-- The last entry of converter b's sequence (R246). -/
def hkLast (s : State) (b : Fin 2) : Nat := s.fget (seqPage s b) ⟨0x080, 0, 4⟩

/-- Whether converter b works. -/
def hkUp (s : State) (b : Fin 2) : Bool := s.pwr.hkOn && !s.bad (hkP b)

/-- Whether converter b takes entries and host requests: in low power the twilight round alone goes on, beside flare guards (R32). -/
def hkServes (s : State) (b : Fin 2) : Bool := hkUp s b && (s.fget 0x001 pwrState == 0 || twilight s b)

/-- The grid instants since D_HK came up, 12.5 µs or 1,953.125 cycles of REFCLK_HOST apart (R261). -/
def gridNow (s : State) : Nat := s.since s.adac.gridAt * 1000 / 1953125

/-- The outputs that a conversion has made by now, and which of them it discarded (R261, R272). -/
def HkRun.made (r : HkRun) (s : State) : Nat := gridNow s - r.start

/-- A conversion ends before its last output: the outputs that it discarded are counted (R272). -/
def hkCut (b : Fin 2) (s : State) : State :=
  match s.hk[b].run with
  | some r => addCtr (cHk b 0) (min r.discard (r.made s)) (s.setHk b (fun h => { h with run := none }))
  | none => s

/-- The codes that an entry's rotation converts in turn (R247). -/
def rotInputs (w : Nat) : List Nat := ((List.range (bits w 13 3 + 1)).map (fun i => bits w 0 7 + i)).filter inputOk

/-- The settings, reference, ACC and SETTLE of a job; none where the entry is skipped (R244, R247, R266). -/
def hkJob (s : State) (b : Fin 2) (j : HkJob) : Option (HkSet × Nat × Nat × Nat) :=
  match j with
  | .entry e =>
    let w := hkEntry s b e
    let l := rotInputs w
    if !inputOk (bits w 0 7) || decide (4 < bits w 7 3) then none
    else
      let input := nth 0x7F l (kget 0 s.hk[b].rot e % l.length)
      some ({ input := input, gain := bits w 7 3, phase := bits w 24 8, bank := bit (tb (s.rd (ra (hkP b) 0x1E8)) e) },
        bits w 10 3, bits w 20 4, bits w 16 4)
  | .host =>
    let w := s.rd (ra (hkP b) 0x084)
    if !inputOk (bits w 0 7) || decide (4 < bits w 7 3) then none
    else
      some ({ input := bits w 0 7, gain := bits w 7 3, phase := bits w 24 8, bank := bit (tb (s.rd (ra (hkP b) 0x1E8)) 16) },
        bits w 10 3, bits w 20 4, bits w 16 4)
  | .guard (.las n) => some ({ input := 0x20 + 4 * n + s.fget lasP (lbRange n), gain := 0, phase := 0, bank := 0 }, 0, 2, 0)
  | .guard (.flare n) => some ({ input := s.fget (wmkP n) ⟨0x090, 0, 5⟩, gain := 0, phase := 0, bank := 0 }, 0, 0, 0)

/-- A conversion starts at grid instant `at_`: a pending commit of its bank takes effect, and it discards what R245, R267 and R270 give, but no fewer than `least` (R271, R272). -/
def hkBegin (b : Fin 2) (j : HkJob) (least at_ : Nat) (s : State) : State :=
  match hkJob s b j with
  | none => s
  | some (set, ref, acc, settle) =>
    let pend := tb (s.rd (ra (hkP b) 0x1F4)) (17 + set.bank)
    let s := if pend then
        (s.setHk b (fun h => { h with live := (List.range 32).foldl (fun t i => kput (vendorCoef i) t (32 * set.bank + i) (coefOf h.pend set.bank i)) h.live })).fset (hkP b) ⟨0x1F4, 17 + set.bank, 1⟩ 0
      else s
    let due := match s.hk[b].prev with
      | none => 20 + settle
      | some p =>
        if p.input ≠ set.input ∨ p.gain ≠ set.gain ∨ p.phase ≠ set.phase then 20 + settle
        else if p.bank ≠ set.bank ∨ pend then 16 else 0
    let run : HkRun := { job := j, set := set, ref := ref, acc := acc, discard := max least due, start := at_ }
    let s := s.setHk b (fun h => { h with run := some run, prev := some set })
    let s := match j with
      | .entry e => s.fset (hkP b) hkEntryF e
      | _ => s
    (s.setFlag (hkP b) hkGuardF (match j with | .guard _ => true | _ => false)).setFlag (hkP b) hkHostF (j == .host)

/-- A job whose INPUT or GAIN is reserved is skipped with a record; a host request is over with it (R244). -/
def hkSkip (b : Fin 2) (j : HkJob) (s : State) : State :=
  match j with
  | .entry e => ignored (seqPage s b) (0x040 + 4 * (e % 16)) 18 s
  | .host => ignored (hkP b) 0x084 18 (s.setFlag (hkP b) hkBusyF false)
  | .guard _ => s

/-- The entry from `e` on that a pass runs next, starting at grid instant `at_`, skipping those that R244 skips; `fuel` bounds the entries. -/
def hkEntryFrom (b : Fin 2) (at_ : Nat) : Nat → Nat → State → State
  | 0, _, s => s.setHk b (fun h => { h with inPass := false })
  | fuel + 1, e, s =>
    if hkLast s b < e || !hkServes s b then s.setHk b (fun h => { h with inPass := false })
    else match hkJob s b (.entry e) with
      | some _ => hkBegin b (.entry e) 0 at_ (s.setHk b (fun h => { h with next := e + 1 }))
      | none => hkEntryFrom b at_ fuel (e + 1) (hkSkip b (.entry e) s)

/-- A pass starts over the entries of converter b, at a grid instant where nothing is in progress (R246, R261). -/
def hkPass (b : Fin 2) (at_ : Nat) (s : State) : State :=
  let s := s.setHk b (fun h => { h with inPass := true, late := false })
  if s.hk[b].run.isSome then s.setHk b (fun h => { h with next := 0 }) else hkEntryFrom b at_ 16 0 s

/-- Lasers whose guard request was dropped ask again while the queue has room (R248). -/
def regrant (s : State) : State :=
  each (List.finRange 8) (fun n s =>
    if s.las[n].due && decide (s.hk[(0 : Fin 2)].guards.length < 4) then
      (s.setLas n (fun l => { l with due := false })).setHk 0 (fun h => { h with guards := h.guards ++ [.las n] })
    else s) s

/-- The VAUX reading of the twilight round in units of 100 µV, from the last publication of an entry whose input is VAUX ÷4 (R241, R366). -/
def vauxRead (s : State) (b : Fin 2) : Option Nat :=
  ((List.range (hkLast s b + 1)).find? (fun e => decide (0 < s.hk[b].res[Fin.ofNat 17 e].cnt) && s.hk[b].res[Fin.ofNat 17 e].input == 0x6C)).map (fun e =>
    let r := s.hk[b].res[Fin.ofNat 17 e]
    (r.sum.toInt * 50000 / ((r.cnt * 2 ^ bits (hkEntry s b e) 7 3 * 8388608 : Nat) : Int)).toNat)

/-- The next entry of the pass from grid instant `at_`, or the pass that is due at its end (R246). -/
def hkPassOn (b : Fin 2) (at_ : Nat) (s : State) : State :=
  if s.hk[b].inPass then
    let s := hkEntryFrom b at_ 16 s.hk[b].next s
    let again := s.hk[b].late || (b == 0 && !twilight s b && s.fget (hkP b) ⟨0x080, 8, 16⟩ == 0)
    let s := if !s.hk[b].inPass && twilight s b then cmisRound (vauxRead s b) s else s
    if s.hk[b].inPass then s
    else if again && tb (s.rd (ra (seqPage s b) 0x080)) 4 && hkServes s b then hkPass b at_ s
    else s.setHk b (fun h => { h with streak := false })
  else s

/-- A host request that waits, or else the pass (R249). -/
def hkHostOn (b : Fin 2) (at_ : Nat) (s : State) : State :=
  if s.hk[b].hostWait && (s.fget 0x001 pwrState == 0) then
    let s := s.setHk b (fun h => { h with hostWait := false })
    if (hkJob s b .host).isSome then hkBegin b .host 0 at_ s else hkPassOn b at_ (hkSkip b .host s)
  else hkPassOn b at_ s

/-- What converter b runs from grid instant `at_` on: a queued guard, the conversion that a guard aborted, a waiting host request, the next entry of the pass, or a pass that is due (R246, R248, R249). -/
def hkNext (b : Fin 2) (at_ : Nat) (s : State) : State :=
  let s := s.setHk b (fun h => { h with run := none })
  let s := (s.setFlag (hkP b) hkGuardF false).setFlag (hkP b) hkHostF false
  let h := s.hk[b]
  match h.guards with
  | g :: r => regrant (hkBegin b (.guard g) 0 at_ (s.setHk b (fun h => { h with guards := r })))
  | [] =>
    match h.aborted with
    | some (j, least) =>
      let s := s.setHk b (fun h => { h with aborted := none })
      if (hkJob s b j).isSome then hkBegin b j least at_ s else hkHostOn b at_ (hkSkip b j s)
    | none => hkHostOn b at_ s

/-- Low power begins: entries and host requests stop where the twilight round does not run, a host request waiting until the device is active again (R32; log entry 84). -/
def hkPause (b : Fin 2) (s : State) : State :=
  let host (j : HkJob) : Bool := match j with | .host => true | _ => false
  let stops (j : HkJob) : Bool := match j with | .entry _ => !twilight s b | .host => true | .guard _ => false
  let wait := (match s.hk[b].run with | some r => host r.job | none => false) || (match s.hk[b].aborted with | some a => host a.1 | none => false)
  let s := s.setHk b (fun h => { h with hostWait := h.hostWait || wait, inPass := h.inPass && twilight s b })
  let s := match s.hk[b].aborted with
    | some a => if stops a.1 then s.setHk b (fun h => { h with aborted := none }) else s
    | none => s
  match s.hk[b].run with
  | some r => if stops r.job then hkNext b (gridNow s + 1) (hkCut b s) else s
  | none => s

/-- The device is active again: a host request that waited runs (R32, R249). -/
def hkResume (b : Fin 2) (s : State) : State :=
  if s.hk[b].run.isNone && s.hk[b].hostWait then hkHostOn b (gridNow s + 1) s else s

/-- HK_PASS_START: a pass starts, or, where the one before has not ended, is counted as an overrun, with event 466 at the first after a pass that ended in time (R246). -/
def execHkPassStart (b : Bool) (s : State) : Host.Outcome State Fault Refusal :=
  let b : Fin 2 := if b then 1 else 0
  nxt (if hkServes s b && tb (s.rd (ra (seqPage s b) 0x080)) 4 then
    if s.hk[b].inPass then
      let first := !s.hk[b].streak
      let s := (s.setHk b (fun h => { h with late := true, streak := true })).fsat (hkP b) hkOverF 1
      if first then raise 466 b s else s
    else hkPass b (gridNow s + 1) (s.setHk b (fun h => { h with streak := false }))
  else s)

/-- The outputs that an aborted conversion discards at least when it restarts: its full count again where it was still discarding (R272). -/
def hkAgain (r : HkRun) (s : State) : Nat := if r.made s < r.discard then r.discard else 0

/-- A guard request on HKA: it aborts the conversion in progress, waits behind another guard, or is dropped with event 468 (R248, R250). -/
def guardReq (g : Guard) (s : State) : State :=
  if !hkUp s 0 then s
  else
    match s.hk[(0 : Fin 2)].run with
    | some r =>
      match r.job with
      | .guard _ =>
        if s.hk[(0 : Fin 2)].guards.length < 4 then s.setHk 0 (fun h => { h with guards := h.guards ++ [g] })
        else
          let s := s.fsat 0x060 hkDropF 1
          match g with
          | .las n => raise 468 0 (s.setLas (Fin.ofNat 8 n) (fun l => { l with due := true }))
          | .flare n => raise 468 1 (s.setWmk (Fin.ofNat 8 n) (fun w => { w with guardOut := false }))
      | .entry e =>
        let k := kget 0 s.hk[(0 : Fin 2)].aborts e + 1
        let s := (hkCut 0 s).setHk 0 (fun h => { h with aborted := some (.entry e, hkAgain r s), aborts := kput 0 h.aborts e k })
        let s := if k = 8 then raise 467 e s else s
        hkBegin 0 (.guard g) 0 (gridNow s + 1) s
      | .host => hkBegin 0 (.guard g) 0 (gridNow s + 1) ((hkCut 0 s).setHk 0 (fun h => { h with aborted := some (.host, hkAgain r s) }))
    | none => hkBegin 0 (.guard g) 0 (gridNow s + 1) s

/-- GUARD_TIMER_EXPIRY: a laser that is ON asks for a guard conversion (R235). -/
def execGuardTimerExpiry (n : Lane) (s : State) : Host.Outcome State Fault Refusal :=
  nxt (if s.fget lasP (lbState n) = 1 then guardReq (.las n) s else s)

/-- A host request: it waits for the conversion in progress, or is refused while BUSY or where REQ_CFG names no conversion (R249). -/
def hostReq (b : Fin 2) (s : State) : State :=
  if s.flag (hkP b) hkBusyF || !hkUp s b || s.fget 0x001 pwrState != 0 || (hkJob s b .host).isNone then s.setFlag (hkP b) hkRefusedF true
  else
    let s := (s.setFlag (hkP b) hkRefusedF false).setFlag (hkP b) hkBusyF true
    if s.hk[b].run.isSome then s.setHk b (fun h => { h with hostWait := true }) else hkBegin b .host 0 (gridNow s + 1) s

/-- HOST_REQ_START (R249). -/
def execHostReqStart (b : Bool) (s : State) : Host.Outcome State Fault Refusal := nxt (hostReq (if b then 1 else 0) s)

/-- A synchronising reset of converter b: every history is zero, and the conversion in progress restarts at the next grid instant, discarding at least 20 outputs and what it was due to discard (R271). -/
def fcReset (b : Fin 2) (s : State) : State :=
  let s := addCtr (cHk b 2) 1 (s.setHk b (fun h => { h with filt := {} }))
  match s.hk[b].run with
  | some r =>
    let s := hkCut b s
    if (hkJob s b r.job).isSome then hkBegin b r.job (max 20 r.discard) (gridNow s + 1) s
    else hkNext b (gridNow s + 1) (hkSkip b r.job s)
  | none => s

/-- FC_SYNC (R271). -/
def execFcSync (b : Bool) (s : State) : Host.Outcome State Fault Refusal := nxt (fcReset (if b then 1 else 0) s)

/-- A write of COMPAT and the shifts of FC_CTRL: a change, or SYNC in the same write (`sync`), causes one synchronising reset (R265, R271). -/
def fcShift (b : Fin 2) (v : Nat) (sync : Bool) (s : State) : State :=
  let a := ra (hkP b) 0x1E4
  let old := s.rd a
  let s := s.wr a (v &&& 0x7FE)
  if old = (v &&& 0x7FE) ∧ sync = false then s else fcReset b s

/-- FC_SHIFT_CHANGE (R271). -/
def execFcShiftChange (b : Bool) (v : Word) (s : State) : Host.Outcome State Fault Refusal := nxt (fcShift (if b then 1 else 0) v.toNat false s)

/-- FC_CTRL.COMMIT: banks wait for their next conversion (R267). -/
def fcCommitOp (b : Fin 2) (banks : Nat) (s : State) : State :=
  s.wr (ra (hkP b) 0x1F4) (s.rd (ra (hkP b) 0x1F4) ||| (banks % 4 * 2 ^ 17))

/-- FC_COMMIT (R267). -/
def execFcCommit (b : Bool) (banks : BitVec 2) (s : State) : Host.Outcome State Fault Refusal := nxt (fcCommitOp (if b then 1 else 0) banks.toNat s)

/-- An access of FC_COEF_DATA: a write reaches the pending copy; INDEX advances where AUTO_INC asks (R267, R273). -/
def fcCoefWrite (b : Fin 2) (write : Option Nat) (s : State) : State :=
  let w := s.rd (ra (hkP b) 0x1EC)
  let i := bits w 0 5
  let s := match write with
    | some v => s.setHk b (fun h => { h with pend := kput (vendorCoef i) h.pend (32 * bits w 5 1 + i) (v % 2 ^ 20) })
    | none => s
  if tb w 6 then s.fset (hkP b) ⟨0x1EC, 0, 5⟩ (i + 1) else s

/-- What FC_COEF_DATA reads: the pending copy (R267). -/
def fcCoefRead (s : State) (b : Fin 2) : Nat :=
  let w := s.rd (ra (hkP b) 0x1EC)
  coefOf s.hk[b].pend (bits w 5 1) (bits w 0 5)

/-- A read of RES_SUM_LO of a slot, 16 being the REQ slot: the snapshot of every result register, READY once (R253). -/
def resRead (b : Fin 2) (slot : Fin 17) (s : State) : State :=
  let r := s.hk[b].res[slot]
  let a := ra (hkP b) (0x090 + 0x14 * slot)
  let s := s.wr a (r.sum.toNat % 2 ^ 24 + bit r.fresh * 2 ^ 24 + r.input * 2 ^ 25)
  let s := (s.wr (a + 4) (r.sum.toNat / 2 ^ 24)).wr (a + 8) r.min.toNat
  let s := (s.wr (a + 12) r.max.toNat).wr (a + 16) (r.cnt % 65536 + r.seqn * 65536)
  s.setHk b (fun h => { h with res := h.res.set slot { h.res[slot] with fresh := false } })

/-- RES_SUM_LO_READ (R253). -/
def execResSumLoRead (b : Bool) (slot : Fin 17) (s : State) : Host.Outcome State Fault Refusal := nxt (resRead (if b then 1 else 0) slot s)

end Sys2Proof.Machine
end

