-- ==== Sys2Proof/Machine/Frame.lean ====
section
/-! DEFINITION. The line frame and the inner code as arithmetic on bits and levels: Gray mapping, comma, header, filler, interleave, encoder and puncturing (R39 to R54), and the tables of rates (R17, R37, R40). -/

namespace Sys2Proof.Machine

/-- The Gray mapping of a pair of bits, first bit most significant, to a level (R41). -/
def grayLevel (a b : Bool) : Nat :=
  match a, b with
  | false, false => 0 | false, true => 1 | true, true => 2 | true, false => 3

/-- The pair of bits that a level carries (R41). -/
def levelBits (l : Nat) : List Bool :=
  match l with
  | 0 => [false, false] | 1 => [false, true] | 2 => [true, true] | _ => [true, false]

/-- Bits taken in pairs to levels (R41); a last odd bit makes no symbol. -/
def toLevels : List Bool → List Nat
  | a :: b :: r => grayLevel a b :: toLevels r
  | _ => []

/-- The bits of a list of levels (R41). -/
def toBits (l : List Nat) : List Bool := l.flatMap levelBits

/-- The value of a level: −3, −1, +1, +3 (R85). -/
def vLevel (l : Nat) : Int :=
  match l with
  | 0 => -3 | 1 => -1 | 2 => 1 | _ => 3

/-- The comma (R42). -/
def comma : List Nat :=
  [3, 3, 3, 0, 0, 0, 3, 0, 0, 3, 3, 0, 3, 0, 3, 3, 0, 0, 0, 3, 3, 3, 0, 3, 0, 3, 0, 0, 3, 0, 0, 3]

/-- The justification control of a frame (R49). -/
inductive JC where
  | nominal | plus | minus
  deriving DecidableEq, Repr

/-- The two bits that a JC copy carries (R49). -/
def JC.code : JC → Nat
  | .nominal => 0 | .plus => 1 | .minus => 2

/-- The JC that two received bits mean; 0b11 is treated as NOMINAL (R46). -/
def JC.ofCode (c : Nat) : JC :=
  if c = 1 then .plus else if c = 2 then .minus else .nominal

/-- The host bits that a frame of this JC carries (R49). -/
def JC.hostBits : JC → Nat
  | .nominal => 65536 | .plus => 65600 | .minus => 65472

/-- The fields of a header but for its CRC (R43). -/
structure Header where
  jc : Nat
  mfc : Nat
  laneId : Nat
  rate : Nat
  parked : Bool
  empty : Bool
  rdi : Bool
  wmkOn : Bool
  subPrev : Bool
  deriving DecidableEq, Repr

/-- Header bits [31:8] as a 24-bit number (R43). -/
def Header.upper (h : Header) : Nat :=
  h.jc * 2 ^ 22 + h.mfc * 2 ^ 14 + h.jc * 2 ^ 12 + h.laneId * 2 ^ 9 + h.rate * 2 ^ 7 + bit h.parked * 2 ^ 6
    + bit h.empty * 2 ^ 5 + bit h.rdi * 2 ^ 4 + h.jc * 2 ^ 2 + bit h.wmkOn * 2 + bit h.subPrev

/-- The CRC-8 of a 24-bit header top (R44). -/
def headerCrc (u : Nat) : Nat := crc8 [u / 65536 % 256, u / 256 % 256, u % 256]

/-- The 32 header bits (R43, R44). -/
def Header.word (h : Header) : Nat := h.upper * 256 + headerCrc h.upper

/-- The 16 levels of a header word, bit 31 first (R43, R41). -/
def headerLevels (w : Nat) : List Nat := toLevels (msbFirst 32 w)

/-- Whether a received header word passes its CRC (R44, R46). -/
def headerOk (w : Nat) : Bool := w % 256 == headerCrc (w / 256)

/-- The two-out-of-three majority of the three JC copies of a header word, bit by bit (R46). -/
def jcMajority (w : Nat) : Nat :=
  let a := bits w 30 2; let b := bits w 20 2; let c := bits w 10 2
  (a &&& b) ||| (a &&& c) ||| (b &&& c)

/-- Whether the three JC copies differ, or decide on 0b11 (R46). -/
def jcDisagree (w : Nat) : Bool :=
  let a := bits w 30 2; let b := bits w 20 2; let c := bits w 10 2
  a != b || b != c || jcMajority w == 3

/-- The fields of a received header word (R43). -/
def headerOf (w : Nat) : Header :=
  { jc := jcMajority w, mfc := bits w 22 8, laneId := bits w 17 3, rate := bits w 15 2, parked := tb w 14,
    empty := tb w 13, rdi := tb w 12, wmkOn := tb w 9, subPrev := tb w 8 }

/-- FILL, 64 bits, first bit most significant (R48). -/
def fillBits : List Bool := msbFirst 64 0xC3A55A3CE1871E78

/-- FILL repeated `n` times (R50). -/
def fillTimes : Nat → List Bool
  | 0 => []
  | n + 1 => fillBits ++ fillTimes n

/-- The 65,600 information bits of a frame carrying no payload (R50). -/
def emptyInfo : List Bool := fillTimes 1025

/-- The information bits of a frame whose host bits, in block order, are given (R47, R48, R49). -/
def frameInfo (jc : JC) (host : List Bool) : List Bool :=
  match jc with
  | .nominal => host ++ fillBits
  | .plus => host
  | .minus => host ++ fillBits ++ fillBits

/-- The host bits of a frame from its 65,600 information bits (R47, R49, R58). -/
def hostOfInfo (jc : JC) (info : List Bool) : List Bool := info.take jc.hostBits

/-- Blocks of 32 bits taken in turn from host lanes A and B (R51); `fuel` is the number of block pairs. -/
def interleave : Nat → List Bool → List Bool → List Bool
  | 0, _, _ => []
  | f + 1, a, b => a.take 32 ++ b.take 32 ++ interleave f (a.drop 32) (b.drop 32)

/-- The bits of host lanes A and B from blocks of 32 taken in turn (R51). -/
def deinterleave : Nat → List Bool → List Bool × List Bool
  | 0, _ => ([], [])
  | f + 1, l =>
    let r := deinterleave f (l.drop 64)
    (l.take 32 ++ r.1, (l.drop 32).take 32 ++ r.2)

/-- One step of the encoder from state `s` (bit 3 is a_(k−1), bit 0 is a_(k−4)) on bit `u`: the parity bit and the next state (R53). -/
def encStep (s : Nat) (u : Bool) : Bool × Nat :=
  let a1 := tb s 3; let a2 := tb s 2; let a3 := tb s 1; let a4 := tb s 0
  let a := xor u (xor a3 a4)
  (xor (xor a a1) (xor a2 a4), bit a * 8 + bit a1 * 4 + bit a2 * 2 + bit a3)

/-- The positions of a puncture period at which the parity bit is sent (R54). -/
def parityAt (j : Nat) : Bool := j == 12 || j == 29 || j == 45 || j == 62 || j == 79 || j == 95

/-- The coded bits of information bits from encoder state `s`, the first at position `j` of the puncture period, and the state at the end (R53, R54). -/
def encode : Nat → Nat → List Bool → List Bool × Nat
  | s, _, [] => ([], s)
  | s, j, u :: r =>
    let (p, s') := encStep s u
    let (o, e) := encode s' (if j = 99 then 0 else j + 1) r
    (if parityAt j then u :: p :: o else u :: o, e)

/-- The systematic bits of a frame's coded region, the parity bits dropped: `skip` is true where the next bit is a parity bit (R54, R87). -/
def dropParity : Bool → Nat → List Bool → List Bool
  | _, _, [] => []
  | true, j, _ :: r => dropParity false (if j = 99 then 0 else j + 1) r
  | false, j, u :: r =>
    if parityAt j then u :: dropParity true j r else u :: dropParity false (if j = 99 then 0 else j + 1) r

/-- The host bit rate of a line lane by its RATE field, in units of 53.125 Gb/s (R37). -/
def rateUnits (rate : Nat) : Nat :=
  match rate with
  | 0 => 8 | 1 => 4 | 2 => 2 | _ => 1

/-- The line symbol rate in Bd by coding mode and rate (R37). -/
def symRateHz (coding rate : Nat) : Nat :=
  match coding with
  | 0 => 225781250000 * rateUnits rate / 8
  | 1 => 212500000000 * rateUnits rate / 8
  | _ => 113437500000

/-- The timing-frame boundary k of STD200 in line symbols (R40). -/
def stdBoundary (k : Nat) : Nat := (2973696 * k + 84) / 85

/-- The line symbols of the frame, or timing frame number k, of a coding mode (R39, R40). -/
def frameSymbols (coding k : Nat) : Nat :=
  match coding with
  | 0 => 34816
  | 1 => 32768
  | _ => stdBoundary (k + 1) - stdBoundary k

/-- Whether two comma-length slices of decisions differ in no more than `tol` symbols (R59). -/
def commaFound (tol : Nat) (dec : List Nat) : Bool :=
  dec.length == 32 && ((comma.zip dec).filter (fun p => p.1 != p.2)).length ≤ tol

end Sys2Proof.Machine
end

