-- ==== Sys2Proof/Machine/Overlay.lean ====
section
/-! DEFINITION. The watermark overlay of a lane: its pulse, its symbols and the value that WMKn supplies for each token (R274 to R276). -/

namespace Sys2Proof.Machine

/-- π × 2^80, rounded down. -/
def piFix : Nat := 3797952473636338580787993

/-- The Taylor sum of cosine at y / 2^80, from term `n` of value `t`. -/
def cosTerms (y2 : Int) : Nat → Nat → Int → Int
  | 0, _, _ => 0
  | f + 1, n, t => t + cosTerms y2 f (n + 2) (-(t * y2 / 2 ^ 80) / (((n + 1) * (n + 2) : Nat) : Int))

/-- The Taylor sum of sine at y / 2^80. -/
def sinTerms (y y2 : Int) : Int := y * cosTermsOdd y2 30 1 (2 ^ 80) / 2 ^ 80
where
  /-- The sum of (−1)^i y^(2i) / (2i + 1)!. -/
  cosTermsOdd (y2 : Int) : Nat → Nat → Int → Int
    | 0, _, _ => 0
    | f + 1, n, t => t + cosTermsOdd y2 f (n + 2) (-(t * y2 / 2 ^ 80) / (((n + 1) * (n + 2) : Nat) : Int))

/-- The pulse g at a distance of num / den overlay symbols, × 2^80: the raised cosine of roll-off 0.5 cut off at ±4 symbols, sin(πx) / (πx) × cos(πx / 2) / (1 − x²) (R274). -/
def pulse (num : Int) (den : Nat) : Int :=
  let n := num.natAbs
  if n = 0 then 2 ^ 80
  else if 4 * den < n ∨ n % den = 0 then 0
  else
    -- sin(πx) from half angles: 2 × sin(πx/2) × cos(πx/2), the angle reduced to a quarter turn
    let q := n / den % 4
    let r := n % den
    let y : Int := ((piFix * r / (2 * den) : Nat) : Int)
    let y2 := y * y / 2 ^ 80
    let s0 := sinTerms y y2
    let c0 := cosTerms y2 30 0 (2 ^ 80)
    let (s, c) := match q with
      | 0 => (s0, c0) | 1 => (c0, -s0) | 2 => (-s0, -c0) | _ => (-c0, s0)
    let sinPi := 2 * s * c / 2 ^ 80
    let top := sinPi * c / 2 ^ 80
    -- divided by πx × (1 − x²)
    let bot : Int := (piFix : Int) * (n : Int) * ((den : Int) * (den : Int) - (n : Int) * (n : Int))
    top * 2 ^ 80 * ((den : Int) * (den : Int) * (den : Int)) / bot

/-- WMK_CTRL.TX_EN and DEPTH in force, RX_EN, and SYNC_TOL (R295). -/
def wmkTxEn : Fld := ⟨0x040, 0, 1⟩
/-- WMK_CTRL.DEPTH. -/
def wmkDepth : Fld := ⟨0x040, 1, 5⟩

/-- Overlay symbol m of lane n: of the frame in transmission, of the frame before it, or of the idle pattern, which is +1 at even numbers (R276). -/
def wmkSym (w : WmkSt) (m : Nat) : Int :=
  let of (b : Bool) : Int := if b then 1 else -1
  if w.base ≤ m ∧ m < w.base + w.syms.length then of (nth false w.syms (m - w.base))
  else if w.lastBase ≤ m ∧ m < w.lastBase + w.lastSyms.length then of (nth false w.lastSyms (m - w.lastBase))
  else if m % 2 = 0 then 1 else -1

/-- The overlay amplitude × 200 in 1/16 DAC code (R275). -/
def wmkAmp200 (s : State) (n : Lane) : Int :=
  3 * (s.ffget (wmkP n) wmkDepth : Int) * sx 10 (s.inForce (ra (ltxP n) (0x054 + 4 * 2)))

/-- The overlay symbol under way at a line symbol, at 2.5 MBd (R274). -/
def wmkIndex (s : State) (n : Lane) (pos : Nat) : Nat :=
  pos * 2500000 / symRateHz (s.coding n) (s.rate n)

/-- w for the token that starts at line symbol `pos` of the overlay: A × Σ a_m g at the token's centre, rounded half up to 1/16 DAC code (R274). -/
def overlayAt (s : State) (n : Lane) (pos : Nat) : Int :=
  let r := symRateHz (s.coding n) (s.rate n)
  let t := (pos + 64) * 2500000
  let m0 := t / r
  let sum := sumI ((List.range 10).map (fun i =>
    if m0 + i < 4 then 0
    else
      let m := m0 + i - 4
      wmkSym s.wmk[n] m * pulse ((t : Int) - (m : Int) * (r : Int)) r))
  roundHalfUp (wmkAmp200 s n * sum) (200 * 2 ^ 80)

/-- The overlay of each token of a frame of `k` symbols (R274). -/
def overlay (s : State) (n : Lane) (k : Nat) : List Int :=
  if s.ffget (wmkP n) wmkTxEn = 1 then (List.range ((k + 127) / 128)).map (fun j => overlayAt s n (s.wmk[n].pos + 128 * j)) else []

end Sys2Proof.Machine
end

