-- ==== Sys2Proof/Machine/CalCycle.lean ====
section
/-! DEFINITION. The calibration cycle of a line lane as other blocks see it: its fields, the correction of a sample, and the conditions under which a cycle runs (R210 to R214, R226). -/

namespace Sys2Proof.Machine

/-- Page BIST. -/
def bistP : Nat := 0x068

/-- CAL_CTRL.BG_EN of lane n (R226). -/
def calBg (n : Nat) : Fld := ⟨0x040 + 0x20 * n, 0, 1⟩
/-- CAL_STAT.STATE: 0 IDLE, 1 ESTIMATE, 2 EST_READY, 3 VERIFY, 4 VER_READY, 5 SWAP_PENDING, 6 WAIT, 7 FOREGROUND. -/
def calState (n : Nat) : Fld := ⟨0x044 + 0x20 * n, 0, 3⟩
/-- CAL_STAT.READY. -/
def calReady (n : Nat) : Fld := ⟨0x044 + 0x20 * n, 3, 1⟩
/-- CAL_STAT.FAST. -/
def calFast (n : Nat) : Fld := ⟨0x044 + 0x20 * n, 4, 1⟩
/-- CAL_STAT.ATTEMPT. -/
def calAttempt (n : Nat) : Fld := ⟨0x044 + 0x20 * n, 5, 2⟩
/-- CAL_STAT.TARGET_POS. -/
def calTarget (n : Nat) : Fld := ⟨0x044 + 0x20 * n, 7, 6⟩
/-- CAL_STAT.RQF_MIN_RND. -/
def calMin (n : Nat) : Fld := ⟨0x044 + 0x20 * n, 16, 16⟩
/-- CAL_PEND. -/
def calPend (n : Nat) : Nat := ra bistP (0x050 + 0x20 * n)
/-- ADC_SLICE.OUT_SLICE (R107). -/
def adcOut : Fld := ⟨0x06C, 0, 7⟩
/-- ADC_SLICE.NO_SPARE. -/
def adcNoSpare : Fld := ⟨0x06C, 7, 1⟩
/-- ADC_SLICE.FAILED_SLICE. -/
def adcFailed : Fld := ⟨0x06C, 8, 7⟩
/-- ADC_SLICE.SWAP_SEQ. -/
def adcSwaps : Fld := ⟨0x06C, 16, 16⟩

/-- The correction word of a slice: OFS in bits [9:0], GAIN in [19:10], SKEW in [29:20] (R210, R226). -/
def corrOf (s : State) (n : Lane) (slice : Nat) : Nat := kget 0 s.cal[n].corr slice

/-- The correction word of a slice changes (R210). -/
def setCorr (n : Lane) (slice v : Nat) (s : State) : State :=
  s.setCal n (fun c => { c with corr := kput 0 c.corr slice (v % 2 ^ 30) })

/-- A raw slice sample corrected by a word: (r − OFS/16) × (1 + GAIN/4,096), rounded half up and held to −64 … +63 (R210). -/
def correctSample (word : Nat) (r : Int) : Int :=
  clampI (-64) 63 (roundHalfUp ((16 * r - sx 10 word) * (4096 + sx 10 (word / 1024))) 65536)

/-- Samples of a lane corrected by the slices that fill their positions, from position `p` on (R74, R210). -/
def correctFrom (s : State) (n : Lane) : Nat → List Int → List Int
  | _, [] => []
  | p, r :: rest => correctSample (corrOf s n (nth 0 s.lanes[n].slices (p % 64))) r :: correctFrom s n (p + 1) rest

/-- The conditions of R212 hold on a lane. -/
def calOk (s : State) (n : Lane) : Bool :=
  s.flag bistP (calBg n) && s.rxLive n && !s.stopped (lfmP n) && !s.flag (lrxP n) lrxLos && s.flag (lrxP n) lrxCdr
    && !s.flag (wmkP n) wmkFlareRx && !s.flag (lrxP n) adcNoSpare

/-- An ESTIMATE begins: the out slice's correction is copied into CAL_PEND (R214). -/
def calStart (n : Lane) (s : State) : State :=
  let w := corrOf s n s.cal[n].out
  ((s.setCal n (fun c => { c with begun := w })).wr (calPend n) w).fset bistP (calState n) 1

/-- A cycle is abandoned: the out slice keeps the correction it held when its last ESTIMATE began (R212). -/
def calAbandon (n : Lane) (tgt : Nat) (s : State) : State :=
  let st := s.fget bistP (calState n)
  let s := if 1 ≤ st ∧ st ≤ 5 then setCorr n s.cal[n].out s.cal[n].begun s else s
  s.fset bistP (calState n) tgt

/-- The state of a lane's cycle follows the conditions of R212 (R214). -/
def calCheck (n : Lane) (s : State) : State :=
  let st := s.fget bistP (calState n)
  if s.cal[n].fg then (if st = 7 then s else calAbandon n 7 s)
  else if !s.flag bistP (calBg n) || !s.lanes[n].run || s.flag (lrxP n) adcNoSpare then
    (if st = 0 then s else calAbandon n 0 s)
  else if calOk s n then (if 1 ≤ st ∧ st ≤ 5 then s else calStart n s)
  else if st = 6 then s else calAbandon n 6 s

/-- A lane's cycles stand in FAST for 65 swaps (R217, R219). -/
def calFastOn (n : Lane) (s : State) : State :=
  (s.setCal n (fun c => { c with fastLeft := 65 })).setFlag bistP (calFast n) true

/-- A page becomes UNUSABLE (R77, R222, R322). -/
def markBad (page : Nat) (s : State) : State :=
  if s.bad page then s else { s with pwr := { s.pwr with unusable := page :: s.pwr.unusable } }

/-- A slice is retired, event 18 of the lane naming it; a second failed slice marks LRXn UNUSABLE with event 25, DETAIL the lane (R77, R220, R224). -/
def retire (n : Lane) (slice : Nat) (s : State) : State :=
  if s.flag (lrxP n) adcNoSpare then
    if s.bad (lrxP n) then s
    else raise 25 n ((markBad (lrxP n) s).fset bistP ⟨0x14C, n, 1⟩ 1)
  else
    let s := s.setCal n (fun c => { c with retired := some slice })
    raise (evLane n 18) slice ((s.setFlag (lrxP n) adcNoSpare true).fset (lrxP n) adcFailed slice)

end Sys2Proof.Machine
end

