-- ==== Sys2Proof/Machine/Detect.lean ====
section
/-! DEFINITION. The arithmetic of the receivers: FFE, tail DFE, expected samples, branch metrics, the 4-state detectors and the 64-state joint trellis (R81 to R90), the host receiver's slicer (R136, R137), blocks of samples (R75, R104), gradient sums (R95, R138) and the quality figures with the suspect events of the re-encoded decisions (R99, R100). Samples after the FFE are integers in 1/256 FFE unit. -/

namespace Sys2Proof.Machine

/-- The coefficients of a receiver in force, as integers of their codes: FFE taps, DFE taps, levels, H1, the main-cursor tap, and whether the DFE is on. -/
structure RxCoef where
  ffe : List Int
  dfe : List Int
  lvl : List Int
  h1 : Int
  main : Nat
  dfeOn : Bool
  deriving DecidableEq, Repr

/-- The sum of products of two lists. -/
def dotI : List Int → List Int → Int
  | a :: r, b :: q => a * b + dotI r q
  | _, _ => 0

/-- y_k from the samples x_(k+M), x_(k+M−1), …, held to −512 … +511 FFE units (R81, R136). -/
def ffeOut (c : RxCoef) (xs : List Int) : Int := clampI (-131072) 130816 (dotI c.ffe xs)

/-- The tail DFE's subtraction for tentative levels â_(k−2) to â_(k−6) (R85). -/
def dfeOut (c : RxCoef) (y : Int) (tent : List Nat) : Int :=
  if c.dfeOn then y - 256 * dotI c.dfe (tent.map vLevel) else y

/-- The expected sample for level l after level p (R82). -/
def expected (c : RxCoef) (l p : Nat) : Int := 256 * nth 0 c.lvl l + c.h1 * nth 0 c.lvl p

/-- The branch metric min(|s − ŷ|, 63)² in squared FFE units; how its fraction rounds is open (R83; log entry 14). -/
def branchMetric (s e : Int) : Nat :=
  let d : Nat := min (s - e).natAbs 16128
  d * d / 65536 + (if d * d % 65536 = 0 then 0 else (Config.openChoice 3 (d : Int) % 2).toNat)

/-- A path: its metric and its levels, newest first. -/
abbrev Path := Nat × List Nat

/-- The metric of a state that no path reaches. -/
def noPath : Nat := 16384

/-- One branch of a detector: from a state, to a state, by a level, with its expected sample. -/
structure Branch where
  src : Nat
  dst : Nat
  lvl : Nat
  exp : Int
  deriving DecidableEq, Repr

/-- The better of two paths into a state, the earlier where they are equal (R83). -/
def betterPath (p q : Path) : Path := if q.1 < p.1 then q else p

/-- One symbol of a detector of `k` states: each state keeps its best path, 14 bits wide, from which the smallest metric is subtracted; paths keep `depth` + 1 levels (R83). Branches stand in the order of their source states. -/
def acs (k depth : Nat) (bs : List Branch) (s : Int) (ps : List Path) : List Path :=
  let best (j : Nat) : Path :=
    (bs.filter (fun b => b.dst == j)).foldl (fun p b =>
      let q := nth (noPath, []) ps b.src
      if q.1 < noPath then betterPath p (min 16383 (q.1 + branchMetric s b.exp), (b.lvl :: q.2).take (depth + 1)) else p) (noPath, [])
  let r := (List.range k).map best
  let m := r.foldl (fun a p => min a p.1) noPath
  r.map (fun p => if p.1 < noPath then (p.1 - m, p.2) else p)

/-- The path of the best state, the lowest-numbered where metrics are equal (R83). -/
def bestPath (ps : List Path) : Path := ps.foldl betterPath (noPath, [])

/-- Equal metrics in `k` states, with nothing decided. -/
def flatPaths (k : Nat) : List Path := List.replicate k (0, [])

/-- The branches of the 4-state detector (R84, R89). -/
def branches4 (c : RxCoef) : List Branch :=
  (List.range 4).flatMap (fun p => (List.range 4).map (fun l => { src := p, dst := l, lvl := l, exp := expected c l p }))

/-- A detector over samples, the branches chosen by symbol number: the decision read at each symbol, `depth` symbols back in the best survivor, and the paths after the last. -/
def detect (k depth : Nat) (br : Nat → List Branch) : Nat → List Int → List Path → List Nat × List Path
  | _, [], ps => ([], ps)
  | t, s :: r, ps =>
    let ps := acs k depth (br t) s ps
    let d := nth 0 (bestPath ps).2 depth
    let (o, ps) := detect k depth br (t + 1) r ps
    (d :: o, ps)

/-! The 64-state trellis -/

/-- What a symbol of the coded region carries by its place in the puncture period of 53 symbols (R54, R86). -/
inductive SymKind where
  | both
  | split
  | parityThenInfo
  | infoThenParity
  deriving DecidableEq, Repr

/-- The kind of symbol `p` of a puncture period (R86). -/
def symKind (p : Nat) : SymKind :=
  if p = 23 ∨ p = 32 ∨ p = 41 then .split
  else if p = 24 ∨ p = 33 ∨ p = 42 then .parityThenInfo
  else if p = 6 ∨ p = 15 ∨ p = 50 then .infoThenParity
  else .both

/-- The information bits of a puncture period that come before its symbol `p` (R54). -/
def infoBefore (p : Nat) : Nat :=
  (List.range p).foldl (fun a q =>
    match symKind q with
    | .parityThenInfo | .infoThenParity => a + 1
    | _ => a + 2) 0

/-- The information bits of a frame that come before its symbol `t` (R39, R54). -/
def infoIndex (t : Nat) : Nat := if t ≤ 48 then 0 else (t - 48) / 53 * 100 + infoBefore ((t - 48) % 53)

/-- The levels allowed by known information bits of a symbol: each entry is a bit's index in the frame, where it is known, and its place in the level (R55). -/
def knownOk (known : Nat → Option Bool) (i : Nat) (bs : List Bool) : Bool :=
  match bs with
  | [] => true
  | b :: r => (match known i with | some k => k == b | none => true) && knownOk known (i + 1) r

/-- The branches out of trellis state 4 × code + p at a symbol of the coded region, `i` being its first information bit (R86). -/
def codedFrom (c : RxCoef) (known : Nat → Option Bool) (kind : SymKind) (i code p : Nat) : List Branch :=
  let mk (dst l : Nat) (bs : List Bool) : List Branch :=
    if knownOk known i bs then [{ src := 4 * code + p, dst := 4 * dst + l, lvl := l, exp := expected c l p }] else []
  match kind with
  | .both => (List.range 4).flatMap (fun l =>
      let u := tb (l ^^^ (l >>> 1)) 1; let v := tb (l ^^^ (l >>> 1)) 0
      mk (encStep (encStep code u).2 v).2 l [u, v])
  | .split => (List.range 4).flatMap (fun l =>
      let u := tb (l ^^^ (l >>> 1)) 1; let v := tb (l ^^^ (l >>> 1)) 0
      mk (encStep code u).2 l [u, v])
  | .parityThenInfo =>
    let r := encStep code (tb (p ^^^ (p >>> 1)) 0)
    [false, true].flatMap (fun u => mk (encStep r.2 u).2 (grayLevel r.1 u) [u])
  | .infoThenParity => [false, true].flatMap (fun u => let r := encStep code u; mk r.2 (grayLevel u r.1) [u])

/-- The branches of the trellis at symbol `t` of a frame of 34,816 symbols, whose comma and header hold the code state (R86). -/
def branches64 (c : RxCoef) (known : Nat → Option Bool) (t : Nat) : List Branch :=
  let t := t % 34816
  (List.range 16).flatMap (fun code => (List.range 4).flatMap (fun p =>
    if t < 32 then
      let l := nth 0 comma t
      [{ src := 4 * code + p, dst := 4 * code + l, lvl := l, exp := expected c l p }]
    else if t < 48 then
      (List.range 4).map (fun l => { src := 4 * code + p, dst := 4 * code + l, lvl := l, exp := expected c l p })
    else codedFrom c known (symKind ((t - 48) % 53)) (infoIndex t) code p))

/-- The filler bits of a frame that its header makes known: the filler opportunities of JC, or every bit of a parked or empty frame (R50, R55). -/
def fillKnown (jc : JC) (all : Bool) (i : Nat) : Option Bool :=
  if (all || decide (jc.hostBits ≤ i)) && decide (i < 65600) then some (nth false fillBits (i % 64)) else none

/-! A frame's samples through the stages -/

/-- What an FFE of `k` taps sees at each sample of a run after its history: the newest `k` samples, newest first (R81, R136). -/
def windows (k : Nat) : List Int → List Int → List (List Int)
  | _, [] => []
  | h, x :: r =>
    let h := (x :: h).take k
    h :: windows k h r

/-- The corrected samples z_k from y_k and the tentative decisions, whose history from k − 1 back is `tent` (R85). -/
def tailDfe (c : RxCoef) : List Nat → List Int → List Nat → List Int × List Nat
  | tent, y :: r, a :: q =>
    let (o, t') := tailDfe c ((a :: tent).take 6) r q
    (dfeOut c y (tent.drop 1) :: o, t')
  | tent, _, _ => ([], tent)

/-- What the stages ahead of the main section give for `n` symbols: the samples x_(k+M), x_(k+M−1), … that each y_k is formed of, y, the tentative decisions â, z, and the histories after the last of the `n` (R81 to R85). The samples go on past the `n` symbols as far as the detectors look ahead. -/
structure Front where
  win : List (List Int)
  y : List Int
  z : List Int
  tent : List Nat
  det : Det

/-- The front stages over the samples of a frame of `n` symbols and what follows it. -/
def front (c : RxCoef) (n : Nat) (d : Det) (xs : List Int) : Front :=
  let xh := d.xHist ++ List.replicate (40 - d.xHist.length) 0
  let win := (windows 41 xh xs).drop c.main
  let y := win.map (ffeOut c)
  let lead0 : List Path := if d.leadS.length = 4 ∧ d.leadM.length = 4 then d.leadM.zip d.leadS else flatPaths 4
  let (o1, lead1) := detect 4 8 (fun _ => branches4 c) 0 (y.take n) lead0
  let (o2, _) := detect 4 8 (fun _ => branches4 c) n (y.drop n) lead1
  let tent := (o1 ++ o2).drop 8
  let th := d.tent ++ List.replicate (6 - d.tent.length) 0
  let (z1, t1) := tailDfe c th (y.take n) (tent.take n)
  let (z2, _) := tailDfe c t1 (y.drop n) (tent.drop n)
  { win := win, y := y, z := z1 ++ z2, tent := tent,
    det := { d with leadM := lead1.map (fun p => p.1), leadS := lead1.map (fun p => p.2), xHist := ((xs.take n).reverse ++ xh).take 40, tent := t1 } }

/-- The main section's paths, equal in every state where it has not run with `k` states (R88). -/
def mainPaths (k : Nat) (d : Det) : List Path :=
  if d.mainM.length = k ∧ d.mainS.length = k then d.mainM.zip d.mainS else flatPaths k

/-- The final decisions of `n` symbols and the detector after them (R87, R89). -/
def mainSection (k depth n : Nat) (br : Nat → List Branch) (f : Front) : List Nat × Det :=
  let (o1, p1) := detect k depth br 0 (f.z.take n) (mainPaths k f.det)
  let (o2, _) := detect k depth br n (f.z.drop n) p1
  let d := ((o1 ++ o2).drop depth).take n
  (d, { f.det with mainM := p1.map (fun p => p.1), mainS := p1.map (fun p => p.2), last := (d.getLast?).getD f.det.last })

/-- The 4-state soft-output detector of STD200: the path metrics after each symbol, and the reliability of the symbol's two bits formed from them (R83, R90). -/
def softOut (c : RxCoef) : List Int → List Path → List Int
  | [], _ => []
  | s :: r, ps =>
    let ps := acs 4 16 (branches4 c) s ps
    let m := ps.map (fun p => p.1)
    Config.softRel 0 m :: Config.softRel 1 m :: softOut c r ps

/-! What the figures see of a symbol -/

/-- One symbol of a line receiver: x_(k+M), …, x_(k+M−40), z_k, â_k, â_(k−2) to â_(k−6), L_k and L_(k−1) (R95, R99, R100). -/
structure RxSym where
  x : List Int
  z : Int
  a : Nat
  back : List Nat
  l : Nat
  p : Nat
  deriving DecidableEq, Repr

/-- The symbols of a run, the tentative decisions before it newest first, and the final decision before it. -/
def rxSyms : List Nat → Nat → List (List Int) → List Int → List Nat → List Nat → List RxSym
  | th, p, w :: ws, z :: zs, a :: as, l :: ls =>
    { x := w, z := z, a := a, back := (th.drop 1).take 5, l := l, p := p } :: rxSyms ((a :: th).take 6) l ws zs as ls
  | _, _, _, _, _, _ => []

/-! The host receiver -/

/-- The level nearest to a sample in 1/256 unit, the lower on a tie (R137). -/
def hostSlice (lvl : List Int) (z : Int) : Nat :=
  let dist (l : Nat) : Nat := (z - 256 * nth 0 lvl l).natAbs
  (List.range 4).foldl (fun b l => if dist l < dist b then l else b) 0

/-- z_k of a host receiver, its one DFE tap acting on the level before (R137). -/
def hostZ (c : RxCoef) (y : Int) (lp : Nat) : Int := if c.dfeOn then y - 256 * nth 0 c.dfe 0 * vLevel lp else y

/-! Gradients and quality figures -/

/-- An error in 1/256 FFE unit rounded to whole units and clipped to −32 … +31 (R95). -/
def gradErr (e : Int) : Int := clampI (-32) 31 (roundHalfUp e 256)

/-- A 24-bit accumulator after an addition, and whether it saturated (R95). -/
def accAdd (a x : Int) : Int × Bool := (clampI (-8388608) 8388607 (a + x), decide (a + x < -8388608 ∨ 8388607 < a + x))

/-- e_k of a line receiver before it is rounded and clipped (R95, R99). -/
def lineErr (c : RxCoef) (r : RxSym) : Int := r.z - expected c r.l r.p

/-- What one symbol of a line lane adds to its 51 accumulators (R95). -/
def lineAdds (c : RxCoef) (r : RxSym) : List Int :=
  let e := gradErr (lineErr c r)
  (List.range 41).map (fun i => e * nth 0 r.x i) ++ (List.range 5).map (fun i => e * vLevel (nth 0 r.back i))
    ++ [e * vLevel r.p] ++ (List.range 4).map (fun l => if r.l = l then e else 0)

/-- One symbol of a host receiver: x_(k+M), …, x_(k+M−23), L_k, L_(k−1) and e_k (R136 to R138). -/
structure HostSym where
  x : List Int
  l : Nat
  p : Nat
  e : Int
  deriving DecidableEq, Repr

/-- The symbols of a host receiver from what its FFE sees, after a decision (R136, R137). -/
def hostSyms (c : RxCoef) : Nat → List (List Int) → List HostSym
  | _, [] => []
  | p, w :: r =>
    let z := hostZ c (ffeOut c w) p
    let l := hostSlice c.lvl z
    { x := w, l := l, p := p, e := z - 256 * nth 0 c.lvl l } :: hostSyms c l r

/-- What one symbol of a host lane adds to its 29 accumulators (R138). -/
def hostAdds (r : HostSym) : List Int :=
  let e := gradErr r.e
  (List.range 24).map (fun i => e * nth 0 r.x i) ++ [e * vLevel r.p] ++ (List.range 4).map (fun i => if r.l = i then e else 0)

/-- A symbol that takes part enters the accumulating set, which is complete after `n` of them (R95, R96, R138). -/
def gradStep (n : Nat) (adds : List Int) (f : FigSt) : FigSt :=
  let base := if f.gradSum.length = adds.length then f.gradSum else adds.map (fun _ => 0)
  let r := (base.zip adds).map (fun p => accAdd p.1 p.2)
  let sums := r.map (fun p => p.1)
  let hit := f.gradHit || r.any (fun p => p.2)
  if n ≤ f.gradN + 1 then { f with gradSum := [], gradHit := false, gradN := 0, gradDone := f.gradDone ++ [(sums, hit)] }
  else { f with gradSum := sums, gradHit := hit, gradN := f.gradN + 1 }

/-- The accumulating set is discarded, and with it what has not been published (R98). -/
def FigSt.gradDrop (f : FigSt) : FigSt := { f with gradSum := [], gradHit := false, gradN := 0, gradDone := [] }

/-- D of GRAD_DEC (R95, R107). -/
def gradD (code : Nat) : Nat :=
  match code with
  | 0 => 1 | 1 => 16 | 2 => 128 | _ => 1024

/-- A symbol enters the quality window, which ends after `w` of them: its error power, whether its tentative decision differs, and whether a run of disagreement has become a suspect event at it (R99, R100). -/
def winStep (w sq : Nat) (dis sus : Bool) (f : FigSt) : FigSt :=
  let f := { f with sumSq := f.sumSq + sq, disagree := f.disagree + bit dis, suspects := f.suspects + bit sus, winN := f.winN + 1 }
  if f.winN < w then f
  else
    { f with winN := 0, sumSq := 0, disagree := 0, suspects := 0, uncorr := 0,
             winDone := f.winDone ++ [{ w := f.winN, sumSq := f.sumSq, disagree := f.disagree, suspects := f.suspects, uncorr := f.uncorr }] }

/-- Blocks of `size` values from `n` values of sum `a` on: what the block under way then holds, and the sums of the blocks that end (R75, R104). -/
def blockSums (size : Nat) : Nat → Nat → List Nat → Nat × Nat × List Nat
  | n, a, [] => (n, a, [])
  | n, a, v :: r =>
    if size ≤ n + 1 then let (n', a', o) := blockSums size 0 0 r; (n', a', (a + v) :: o)
    else blockSums size (n + 1) (a + v) r

/-- The clip blocks over ADC samples: a sample at an end of the range counts (R75). -/
def clipRun (xs : List Int) (f : FigSt) : FigSt :=
  let (n, a, o) := blockSums 32768 f.clipN f.clipSum (xs.map (fun x => bit (decide (x = -64 ∨ x = 63))))
  { f with clipN := n, clipSum := a, clipDone := f.clipDone ++ o }

/-- The signal-detect blocks over ADC samples, the two levels being tests of a block's sum: consecutive blocks below the one, and above the other (R104). -/
def losRun (low high : Nat → Bool) (xs : List Int) (f : FigSt) : FigSt :=
  let (n, a, o) := blockSums 4096 f.losN f.losSum (xs.map (fun x => x.natAbs))
  o.foldl (fun f s => { f with below := if low s then f.below + 1 else 0, above := if high s then f.above + 1 else 0 }) { f with losN := n, losSum := a }

/-- The test of a block's sum S against a level of 2 mVppd × `a` × 10^(0.025 × `h`): 3 S / 4,096 codes, of which 128 are 500 mVppd at VGA code 12 and CTLE code 0, are less than the level through VGA gain 10^((v − 12) / 40) and the CTLE's gain in 1/65,536 (R72, R104). Both sides stand in their 40th power. -/
def belowLevel (a h vga ctle s : Nat) : Bool :=
  decide ((3 * s * 500 * 65536) ^ 40 * 10 ^ 12 < (2 * a * 4096 * 128 * ctle) ^ 40 * 10 ^ (vga + h))

/-- The same level is exceeded. -/
def aboveLevel (a h vga ctle s : Nat) : Bool :=
  decide ((2 * a * 4096 * 128 * ctle) ^ 40 * 10 ^ (vga + h) < (3 * s * 500 * 65536) ^ 40 * 10 ^ 12)

/-- The gain of a CTLE for the signal's swing in 1/65,536: 1 at code 0 (R72); the spec gives its peaking only, so its effect on the swing is open (log entry 69). -/
def ctleGain (code : Nat) : Nat := if code = 0 then 65536 else Config.ctleSwing code

/-- The decided levels of a frame's coded region, re-encoded: their information bits coded from the encoder state that agrees best with them over the first puncture period (R53, R54, R100; log entry 70). -/
def recode (d : List Nat) : List Nat :=
  let info := dropParity false 0 (toBits d)
  let miss (e : Nat) : Nat := (((toLevels (encode e 0 (info.take 100)).1).zip d).filter (fun p => p.1 != p.2)).length
  let e := (List.range 16).foldl (fun b e => if miss e < miss b then e else b) 0
  toLevels (encode e 0 info).1

/-- At each symbol whether a run of disagreement grows longer than `long` there, after a run under way; and the run after the last (R100). -/
def suspectAt (long : Nat) : Nat → List (Nat × Nat) → List Bool × Nat
  | run, [] => ([], run)
  | run, (a, c) :: r =>
    let run := if a = c then 0 else run + 1
    let (o, e) := suspectAt long run r
    (decide (run = long + 1) :: o, e)

/-- The largest k from `lo` below `hi` at which a condition holds, that holds at `lo` and fails from some point on; `fuel` halvings. -/
def largest (ok : Nat → Bool) : Nat → Nat → Nat → Nat
  | 0, lo, _ => lo
  | f + 1, lo, hi =>
    let m := (lo + hi) / 2
    if m ≤ lo then lo else if ok m then largest ok f m hi else largest ok f lo m

/-- round(100 × log10(a / b)), 0 where that is negative: the largest k with 10^((2k − 1) / 200) ≤ a / b (R100). -/
def log10c (a b : Nat) : Nat := largest (fun k => decide (10 ^ (2 * k - 1) * b ^ 200 ≤ a ^ 200)) 11 0 2048

/-- round(1000 × log10(a / b)) held to 1 … 6,000: the largest k with 10^((2k − 1) / 2000) ≤ a / b (R99). -/
def log10m (a b : Nat) : Nat := largest (fun k => decide (10 ^ (2 * k - 1) * b ^ 2000 ≤ a ^ 2000)) 13 1 6001

/-- EQF from the end levels and the mean squared error sumSq / (65,536 w) in square FFE units (R99): Δ = (LVL_3 − LVL_0) / 3. -/
def eqf (lvl : List Int) (sumSq w : Nat) : Nat :=
  let d : Nat := (nth 0 lvl 3 - nth 0 lvl 0).natAbs
  if d = 0 then 1
  else if sumSq = 0 then 6000
  else log10m (5 * d * d * 65536 * w) (36 * sumSq)

/-- round(−100 × log10(n / w)), 0xFFFF for a count of zero (R100). -/
def decades (n w : Nat) : Nat := if n = 0 then 0xFFFF else log10c w n

end Sys2Proof.Machine
end

