-- ==== Sys2Proof/Machine/HostRx.lean ====
section
/-! DEFINITION. The host receivers from ADC samples to host bits: FFE, DFE and slicer, what they count for gradients, the quality figure and signal detect, the pattern checker, the substitute generators, and the deskew buffer of a 400 Gb/s pair (R135 to R141, R151, R152). -/

namespace Sys2Proof.Machine

/-! Substitute generators -/

/-- Symbol `i` of a substitute generator at position `pos`; lane B of a 400 Gb/s pair runs 4,096 symbols behind (R152). The pattern repeats every 8,191 symbols. -/
def genSym (pos : Nat) (b : Bool) : Nat := (Config.prbs13q ((if b then pos + 4095 else pos) % 8191)).val

/-- `k` bits of a substitute generator from a position on (R152). -/
def genBits (pos : Nat) (b : Bool) (k : Nat) : List Bool :=
  (toBits ((List.range ((k + 1) / 2)).map (fun i => genSym (pos + i) b))).take k

/-- Host bits as they leave, symbol by symbol: one of which a bit is missing is the generator's at that position (R152). -/
def resolve (b : Bool) : Nat → List (Option Bool) → List Bool
  | pos, some u :: some v :: r => u :: v :: resolve b (pos + 1) r
  | pos, _ :: _ :: r => levelBits (genSym pos b) ++ resolve b (pos + 1) r
  | pos, [x] => [x.getD (nth false (levelBits (genSym pos b)) 0)]
  | _, [] => []

/-- Whether a host lane is lane B of a 400 Gb/s pair. -/
def isPairB (s : State) (n : Lane) (h : Host16) : Bool := mapRate (s.mapOf n) == 0 && mapB (s.mapOf n) == h

/-- A pattern's symbol by PRBS_SEL (R129, R144); CHK_SEL numbers the first two alike (R141). -/
def patternSym (sel i : Nat) : Nat :=
  (match sel with | 0 => Config.prbs13q i | 1 => Config.prbs31q i | _ => Config.ssprq i).val

/-! The receiver -/

/-- The signed level fields of a pair of level registers: low half, then high half (R82, R107). -/
def levelPair (w : Nat) : List Int := [sx 10 w, sx 10 (w / 65536)]

/-- The coefficients of HRXh in force (R136, R137, R155). -/
def hrxCoef (s : State) (h : Host16) : RxCoef :=
  let f (o : Nat) : Nat := s.inForce (ra (hrxP h) o)
  let m := s.rd (ra (hrxP h) 0x040)
  { ffe := (List.range 24).map (fun i => sx 10 (f (0x070 + 4 * i))), dfe := [sx 8 (f 0x0D0)],
    lvl := levelPair (f 0x0D4) ++ levelPair (f 0x0D8), h1 := 0, main := bits m 0 4, dfeOn := tb m 4 }

/-- Whether a host receiver works: it is mapped, its group is on and its page usable (R149). -/
def State.hrxLive (s : State) (h : Host16) : Bool :=
  (s.laneOf h).isSome && s.pwr.hostOn.getLsbD (h.val / 4) && !s.bad (hrxP h)

/-- The two levels of signal detect for a receiver's page, as tests of a block's sum (R104, R140). -/
def losTests (s : State) (p : Nat) : (Nat → Bool) × (Nat → Bool) :=
  let c := s.rd (ra p 0x04C)
  let fe := s.inForce (ra p 0x044)
  let g := ctleGain (bits fe 0 5)
  (belowLevel (bits c 0 8) 0 (bits fe 8 6) g, aboveLevel (bits c 0 8) (bits c 8 4) (bits fe 8 6) g)

/-- Something holds back the gradient sets of a host receiver (R98, R138). -/
def hrxGradHold (s : State) (h : Host16) : Bool :=
  !s.hrxLive h || s.stopped (hrxP h) || s.flag (hrxP h) hrxLos || !s.flag (hrxP h) hrxCdr || !tb (s.rd (ra (hrxP h) 0x05C)) 5

/-- What the symbols of a host receiver add to its counts, the first of them at index `k` (R95, R138, R139). -/
def hrxFigures (d n w : Nat) (hold : Bool) : Nat → List HostSym → FigSt → FigSt
  | _, [], f => f
  | k, r :: rest, f =>
    let f := if hold then f.gradDrop else if k % d = 0 then gradStep n (hostAdds r) f else f
    hrxFigures d n w hold (k + 1) rest (winStep w (r.e.natAbs * r.e.natAbs) false false f)

/-- HRX_STAT.CHK_LOCK. -/
def hrxChk : Fld := ⟨0x054, 6, 1⟩

/-- One decision at the pattern checker: in lock it is compared with the pattern, and 64 errors in a block of 1,024 symbols end the lock; out of lock the newest 64 decisions are held against the pattern at the place sought, and all 64 equal lock it (R141; log entry 71). With it the symbols and the errors counted. -/
def chkStep (sel : Nat) (x : HostSt × Nat × Nat) (l : Nat) : HostSt × Nat × Nat :=
  let (h, syms, errs) := x
  match h.chkPos with
  | some p =>
    let bad := patternSym sel p != l
    let e := h.chkErr + bit bad
    let n := h.chkN + 1
    let h := if 64 ≤ e then { h with chkPos := none, chkSeen := [], chkN := 0, chkErr := 0 }
      else if n = 1024 then { h with chkPos := some (p + 1), chkN := 0, chkErr := 0 }
      else { h with chkPos := some (p + 1), chkN := n, chkErr := e }
    (h, syms + 1, errs + bit bad)
  | none =>
    let seen := (h.chkSeen ++ [l]).drop (h.chkSeen.length - 63)
    let p := Config.chkSeek sel seen
    let ok := seen.length == 64 && decide (64 ≤ p) && (List.range 64).all (fun i => patternSym sel (p - 64 + i) == nth 0 seen i)
    (if ok then { h with chkPos := some p, chkSeen := [], chkN := 0, chkErr := 0 } else { h with chkSeen := seen }, syms, errs)

/-- Samples of a host receiver become its decisions, and its counts follow (R136 to R141). -/
def hrxRun (h : Host16) (samples : List Int) (s : State) : List Bool × State :=
  let c := hrxCoef s h
  let x := s.hosts[h]
  let syms := hostSyms c x.rxLast (windows 24 x.rxHist samples)
  let lv := syms.map (fun r => r.l)
  let g := s.rd (ra (hrxP h) 0x05C)
  let (low, high) := losTests s (hrxP h)
  let f := losRun low high samples x.fig
  let f := hrxFigures (gradD (bits g 0 2)) (2 ^ (8 + bits g 2 3)) (2 ^ (20 + bits (s.rd (ra (hrxP h) 0x050)) 0 4)) (hrxGradHold s h) x.rxNo syms f
  let x := { x with rxHist := (samples.reverse ++ x.rxHist).take 23, rxLast := (lv.getLast?).getD x.rxLast, rxNo := (x.rxNo + syms.length) % 1024, fig := f }
  let m := s.rd (ra (hrxP h) 0x040)
  let (x, checked, errs) := if tb m 7 then lv.foldl (chkStep (bits m 8 1)) (x, 0, 0) else ({ x with chkPos := none, chkSeen := [] }, 0, 0)
  let s := capFeed [4, 5] h.val (fun kind => (if kind = 4 then samples else lv.map Int.ofNat).map (fun v => { v := v, differs := false })) s
  (toBits lv, addCtr (cHost h 1) checked (addCtr (cHost h 0) errs (s.setHost h (fun _ => x))))

/-! Deskew -/

/-- The deskew buffer's fill, as PAIR_STAT of host lane B shows it (R151). -/
def skewShow (n : Lane) (s : State) : State :=
  let w := s.mapOf n
  if mapEn w && mapRate w == 0 then s.fset (hrxP (mapB w)) hrxFill (min 511 s.lanes[n].skew.length) else s

/-- Host lane B's bits pass through the deskew buffer, as many leaving as lane A's bits come; the fill's leaving 0 to 511 is remembered until the frame boundary, and bits missing are substitutes (R151). -/
def deskew (n : Lane) (k : Nat) (b : List Bool) (s : State) : List (Option Bool) × State :=
  let buf := s.lanes[n].skew ++ b.map some
  let out := buf.take k
  let short := k - out.length
  let rest := buf.drop k
  let left := if short ≠ 0 then 2 else if 511 < rest.length then 1 else s.lanes[n].skewLeft
  let s := skewShow n (s.setLane n (fun l => { l with skew := rest, skewLeft := left }))
  let s := if short = 0 then s else addCtr (cHost (mapB (s.mapOf n)) 2) short s
  (out ++ List.replicate short none, s)

/-- The recentring of the deskew buffer at a frame boundary after its fill has left 0 to 511: lane B bits are dropped, the oldest first, or substitute bits inserted, to a fill of 256 (R151). -/
def deskewRecentre (n : Lane) (s : State) : State :=
  let l := s.lanes[n]
  let w := s.mapOf n
  if l.skewLeft = 0 ∨ !(mapEn w && mapRate w == 0) then s
  else
    let b := mapB w
    let k := l.skew.length
    let moved := if 256 ≤ k then k - 256 else 256 - k
    let s := s.setLane n (fun l => { l with skewLeft := 0, skew := if 256 ≤ k then l.skew.drop (k - 256) else l.skew ++ List.replicate (256 - k) none })
    raise (evHost b 3) (if l.skewLeft = 1 then 1 else 2) (skewShow n (addCtr (cHost b 2) moved s))

end Sys2Proof.Machine
end

