-- ==== Sys2Proof/Machine/LineTx.lean ====
section
/-! DEFINITION. The transmit side of a line lane: the framer and its justification, symbol sources, the DAC code, late tokens, the waveform memory, the nonlinear tables and the current-mode window (R22, R45, R50, R56, R57, R64, R66, R109 to R130). -/

namespace Sys2Proof.Machine

/-! The host side of a frame -/

/-- Whether a host lane's share of each transmit frame is the HRX substitute: LOS, no CDR lock, HRX stopped, or a source not yet good (R154, R160). -/
def hrxSubst (s : State) (n : Lane) (h : Host16) : Bool :=
  s.flag (hrxP h) hrxLos || !s.flag (hrxP h) hrxCdr || s.stopped (hrxP h) || s.bad (hrxP h) || (!s.lanes[n].goodTx && !s.lanes[n].holdTx)

/-- The host lanes of a lane's frames. -/
def pairCount (s : State) (n : Lane) : Nat := (s.hostsOf n).length

/-- The bits that reach the framer from one host lane in a frame period, `k` of them: those decided, or the substitute for the whole share or for those missing (R37, R151, R154). -/
def hostPart (s : State) (n : Lane) (h : Host16) (k : Nat) (bits : List (Option Bool)) : List Bool :=
  let b := isPairB s n h
  if hrxSubst s n h then genBits s.hosts[h].rxGen b k
  else resolve b s.hosts[h].rxGen (bits.take k ++ List.replicate (k - bits.length) none)

/-- What reaches the framer from the host lanes of a line lane in a frame period, from their ADC samples: in locked mode exactly the lane's share from host lane A or the one host lane, and from host lane B, through the deskew buffer, as many bits as from A (R37, R136, R151, R157). -/
def hostArrive (n : Lane) (hostA hostB : List Int) (s : State) : List (List Bool) × State :=
  let share := 65536 / max 1 (pairCount s n)
  let mine (s : State) (l : List Int) : List Int := if s.free n then l else l.take (share / 2)
  let size (s : State) (x : List Bool) : Nat := if s.free n then x.length else share
  match s.hostsOf n with
  | [] => ([], s)
  | [a] =>
    let (x, s) := hrxRun a (mine s hostA) s
    ([hostPart s n a (size s x) (x.map some)], s)
  | a :: b :: _ =>
    let (x, s) := hrxRun a (mine s hostA) s
    let (y, s) := hrxRun b hostB s
    let k := size s x
    let (z, s) := deskew n k y s
    ([hostPart s n a k (x.map some), hostPart s n b k z], s)

/-- The star-map counters of a host lane: SUBST_BITS, SUBST_TX (R407). -/
def cSubstBits (h : Nat) : Nat := cHost h 3
/-- SUBST_TX. -/
def cSubstTx (h : Nat) : Nat := cHost h 4

/-- A host lane's generator advances over the bits of a frame period, and the bits substituted in a frame that is sent are counted (R152, R154). -/
def hrxAdvance (n : Lane) (sent : Bool) (h : Host16) (k : Nat) (s : State) : State :=
  let sub := sent && hrxSubst s n h && !s.txParked n
  let s := s.setHost h (fun x => { x with rxGen := x.rxGen + k / 2 })
  if sub then addCtr (cSubstBits h) k s else s

/-- The fill of the justification buffer (R56). -/
def justFill (s : State) (n : Lane) : Nat := s.lanes[n].bufA.length + s.lanes[n].bufB.length

/-- The JC that a free-mode framer chooses from its fill (R56). -/
def justChoice (f : Nat) : JC := if 448 ≤ f then .plus else if f ≤ 320 then .minus else .nominal

/-- LFM_JUST.FILL, TX_JC, RX_JC (R68). -/
def lfmFill : Fld := ⟨0x04C, 0, 10⟩
/-- LFM_JUST.TX_JC. -/
def lfmTxJc : Fld := ⟨0x04C, 10, 2⟩
/-- LFM_JUST.RX_JC. -/
def lfmRxJc : Fld := ⟨0x04C, 12, 2⟩

/-- The newest `k` elements of a list, oldest first. -/
def newest {α : Type} (k : Nat) (l : List α) : List α := l.drop (l.length - k)

/-- The start of an excursion of the fill out of 0 to 768: one event, and the next frame is sent empty (R57). -/
def justExcursion (n : Lane) (above : Bool) (s : State) : State :=
  if s.lanes[n].excursion then s
  else raise (evLane n 5) (if above then 1 else 2) (s.setLane n (fun l => { l with excursion := true }))

/-- Bits from the host lanes enter the justification buffer; those that would take the fill above 768 are discarded and counted. The two lanes of a pair arrive side by side, so that each holds its half unless the other leaves room (R57). -/
def justPush (n : Lane) (a b : List Bool) (s : State) : State :=
  let l := s.lanes[n]
  let a' := l.bufA ++ a
  let b' := l.bufB ++ b
  let ka := min a'.length (max 384 (768 - b'.length))
  let kb := min b'.length (768 - ka)
  let lost := (a'.length - ka) + (b'.length - kb)
  let s := s.setLane n (fun l => { l with bufA := a'.take ka, bufB := b'.take kb })
  if lost = 0 then s else lostBits n lost (justExcursion n true s)

/-- The buffer holds its 384 newest bits, the rest discarded and counted (R56, R57). -/
def justRecentre (n : Lane) (a b : List Bool) (s : State) : State :=
  let k := 384 / max 1 (pairCount s n)
  let l := s.lanes[n]
  let a' := l.bufA ++ a
  let b' := l.bufB ++ b
  let lost := (a'.length - k) + (b'.length - k)
  lostBits n lost (s.setLane n (fun l => { l with bufA := newest k a', bufB := newest k b' }))

/-- The buffer at a restart: 384 bits that the spec does not name (R56; log entry 3). -/
def justReset (n : Lane) (s : State) : State :=
  let two := pairCount s n == 2
  let (x, s) := (List.range 6).foldl (fun (p : List Bool × State) _ => let (v, s) := p.2.draw 64; (p.1 ++ msbFirst 64 v, s)) (([] : List Bool), s)
  s.setLane n (fun l => { l with
    bufA := if two then x.take 192 else if pairCount s n = 1 then x else [], bufB := if two then x.drop 192 else [], excursion := false })

/-- What a frame takes from the host: its JC, its host bits in block order, and the state after the buffer or the lane's share has given them. -/
structure HostTake where
  jc : JC
  host : List Bool
  st : State

/-- The host bits of one host lane for a frame, missing ones filled from its generator. -/
def padHost (s : State) (n : Lane) (h : Host16) (k : Nat) (l : List Bool) : List Bool :=
  l.take k ++ genBits s.hosts[h].rxGen (isPairB s n h) (k - l.length)

/-- Host bits of one or two lanes in block order (R47, R51). -/
def blockOrder : List (List Bool) → List Bool
  | [a, b] => interleave ((a.length + 31) / 32) a b
  | [a] => a
  | _ => []

/-- A running framer's frame: in locked mode every frame is NOMINAL and takes the lane's share; in free mode JC follows the fill, and missing bits are substituted as an excursion (R49, R56, R57). -/
def takeFrame (n : Lane) (a b : List Bool) (s : State) : HostTake :=
  let hs := s.hostsOf n
  if !s.free n then ⟨.nominal, blockOrder ([a, b].take hs.length), s⟩
  else
    let jc := justChoice (justFill s n)
    let k := jc.hostBits / max 1 hs.length
    let l := s.lanes[n]
    let a' := l.bufA ++ a
    let b' := l.bufB ++ b
    let short := (k - a'.length) + (if hs.length = 2 then k - b'.length else 0)
    let parts := (hs.zip [a', b']).map (fun p => padHost s n p.1 k p.2)
    let s := s.setLane n (fun l => { l with bufA := a'.drop k, bufB := b'.drop k })
    let s := if short = 0 then s else lostBits n short (justExcursion n false s)
    ⟨jc, blockOrder parts, justPush n [] [] s⟩

/-! Symbols and codes -/

/-- One line symbol to be sent: its level, none for a sample that could not be read, and a DAC code that replaces the computed one. -/
structure TxSym where
  lvl : Option Nat
  code : Option Int := none
  deriving DecidableEq, Repr

/-- v of a level, 0 where there is none (R111, R127). -/
def vOpt : Option Nat → Int
  | some l => vLevel l
  | none => 0

/-- The taps in force of LTXn (R111). -/
def ltxTaps (s : State) (n : Lane) : List Int := (List.range 7).map (fun i => sx 10 (s.inForce (ra (ltxP n) (0x054 + 4 * i))))

/-- The byte of TBLM that holds an entry of a nonlinear table (R124; log entry 10). -/
def nlOff (n band bank e : Nat) : Nat := 640 * n + 128 * band + 64 * bank + e

/-- The live bank of a band's set (R124). -/
def nlLive (s : State) (n : Lane) (band : Nat) : Nat := bits s.lanes[n].nlBank band 1

/-- The live nonlinear entry at an address, for the band in force (R112). -/
def nlEntry (s : State) (n : Lane) (addr : Nat) : Int :=
  let band := min 4 (s.ffget (ltxP n) ⟨0x04C, 1, 3⟩)
  let a := 175 * 65536 + nlOff n band (nlLive s n band) addr
  if s.isUe (eccBase a) 4 then 0 else sx 8 (s.fetch a).toNat

/-- The address of the nonlinear table; a level that could not be read counts as 1 (R112, R127). -/
def nlAddr (p c q : Option Nat) : Nat := 16 * p.getD 1 + 4 * c.getD 1 + q.getD 1

/-- The sum of R114 in 1/16 DAC code for the window L_(k+2), L_(k+1), L_k, L_(k−1), … . -/
def ffeSum (taps : List Int) (w : List (Option Nat)) : Int := ((taps.zip w).map (fun p => p.1 * vOpt p.2)).foldl (· + ·) 0

/-- The DAC code of a sum and whether it saturated (R114). -/
def dacCode (sum : Int) : Int × Bool :=
  let d := (sum + 8) / 16
  (clampI (-128) 127 d, decide (d < -128 ∨ 127 < d))

/-- The DAC codes of symbols after their history, newest first, the last two symbols being look-ahead (R111 to R114); `k` is the number of the first, and the overlay is listed by token. -/
def txCodes (s : State) (n : Lane) (taps : List Int) (nl : Bool) (ov : List Int) : List (Option Nat) → Nat → List TxSym → List (Int × Bool)
  | h, k, c :: q :: r :: rest =>
    let x : Int × Bool :=
      match c.code with
      | some d => (d, false)
      | none =>
        let f := ffeSum taps ([r.lvl, q.lvl, c.lvl] ++ h)
        let e := if nl then 16 * nlEntry s n (nlAddr (h.headD (some 1)) c.lvl q.lvl) else 0
        dacCode (f + e + nth 0 ov (k / 128))
    x :: txCodes s n taps nl ov ((c.lvl :: h).take 4) (k + 1) (q :: r :: rest)
  | _, _, _ => []

/-- A waveform sample in playback: a level, or a code; 0 where its word is uncorrectable (R126 to R128). DESIGN CHOICE, log entry 73: a code leaves no level in the symbol history. -/
def wavSym (s : State) (n : Lane) (i : Nat) : TxSym :=
  let c := s.rd (ra (ltxP n) 0x044)
  let a := (152 + n) * 65536 + (c % 65536 + i % (c / 65536 + 1)) % 65536
  if s.isUe (eccBase a) 4 then { lvl := none, code := some 0 }
  else
    let v := (s.fetch a).toNat
    if tb (s.rd (ra (ltxP n) 0x040)) 6 then { lvl := some (v % 4) } else { lvl := none, code := some (sx 8 v) }

/-- The source in force: 0 while the lane sends parked output (R130, R131). -/
def txSrc (s : State) (n : Lane) : Nat := if s.txParked n then 0 else s.fget (ltxP n) ⟨0x040, 2, 2⟩

/-- The levels of a BARE timing frame from the host lanes' bits (R64). -/
def bareLevels : List (List Bool) → List Nat
  | [a, b] => ((toLevels a).zip (toLevels b)).flatMap (fun p => [p.1, p.2])
  | [a] => toLevels a
  | _ => []

/-- LTX_STAT.OUT_STATE (R131). -/
def ltxOut : Fld := ⟨0x080, 1, 2⟩
/-- LTX_STAT.NL_COPY. -/
def ltxCopy : Fld := ⟨0x080, 3, 1⟩
/-- LTX_STAT.NL_DIRTY. -/
def ltxDirty : Fld := ⟨0x080, 4, 5⟩
/-- LTX_STAT.COMPLY. -/
def ltxComply : Fld := ⟨0x080, 9, 1⟩
/-- LTX_STAT.SRC_ACTIVE. -/
def ltxSrcActive : Fld := ⟨0x080, 10, 2⟩
/-- LTX_STAT.SAT. -/
def ltxSat : Fld := ⟨0x080, 12, 1⟩

/-- Step 5 of a foreground calibration runs: by the bounds of R219 it begins 50.5 ms after the calibration and lasts 9 ms, and it is not run where LRXn is UNUSABLE (R219, R220). DESIGN CHOICE, log entry 74: each step takes the whole of its bound. -/
def fgLoop (s : State) (n : Lane) : Bool :=
  let t := (s.time.dtc.toNat / 65536 + 2 ^ 48 - s.cal[n].fgAt) % 2 ^ 48
  s.cal[n].fg && !s.bad (lrxP n) && decide (7890625 ≤ t ∧ t < 9296875)

/-- Whether the pins of LTXn are held as in OFF (R120, R121). -/
def pinsOff (s : State) (n : Lane) : Bool :=
  !s.pwr.laneOn.getLsbD n || s.dusky n || s.lpDown || s.bad (ltxP n) || s.lanes[n].outHold || fgLoop s n
    || !s.lanes[n].modeNamed || s.fget (ltxP n) ltxOut == 0 || s.fget (ltxP n) ltxOut == 3

/-! What the pins show -/

/-- FS of an output mode for an AMP code: in µV into 100 Ω in voltage mode, in µA in current mode, none in OFF (R116). -/
def fullScale (mode amp : Nat) : Nat :=
  match mode with
  | 1 => 300000 + 10000 * min amp 60
  | 2 => 12000 + 500 * min amp 48
  | _ => 0

/-- The differential output for code d in 1/512 of FS's unit: FS × (2 d + 1) / 512 (R115). -/
def diffOut (fs : Nat) (d : Int) : Int := fs * (2 * d + 1)

/-- What pin _P sinks in current mode in 1/1,024 µA: FS/2 × (d + 128.5) / 256 (R116). -/
def sinkP (fs : Nat) (d : Int) : Int := fs * (2 * d + 257)

/-- What pin _N sinks: the rest of the tail current FS/2 (R116). -/
def sinkN (fs : Nat) (d : Int) : Int := fs * 512 - sinkP fs d

/-- The differential output of the last frame's codes in 1/512 µV or µA; none while the pins are high-impedance (R115, R116, R121). -/
def ltxPins (s : State) (n : Lane) : Option (List Int) :=
  if pinsOff s n then none
  else some (s.lanes[n].txDac.map (diffOut (fullScale (s.fget (ltxP n) ltxOut) (s.inForce (ra (ltxP n) 0x048)))))

/-- The header of the next frame sent (R43, R45). -/
def txHeader (s : State) (n : Lane) (jc : JC) (empty : Bool) : Header :=
  let m := s.rd (ra (lfmP n) 0x040)
  { jc := jc.code, mfc := s.lanes[n].mfc, laneId := bits m 5 3, rate := bits m 2 2, parked := s.txParked n, empty := empty,
    rdi := s.fget (lfmP n) lfmFstate != 2, wmkOn := s.ffget (wmkP n) wmkTxEn == 1, subPrev := s.lanes[n].subPrev }

/-- The substitute's code for a level: the main tap alone (R22). -/
def substCode (taps : List Int) (l : Nat) : Int := clampI (-128) 127 (roundHalfUp (nth 0 taps 2 * vLevel l) 16)

/-- Host bits of a frame in block order from the bit of index `k` on replaced by the substitutes of the lanes, at the positions those bits hold (R22). -/
def substTail (s : State) (n : Lane) (host : List Bool) (k : Nat) : List Bool :=
  let hs := s.hostsOf n
  let total := host.length
  let per := total / max 1 hs.length
  let sub := blockOrder (hs.map (fun h => genBits s.hosts[h].rxGen (isPairB s n h) per))
  host.take k ++ sub.drop k

/-- What the framer sends in one frame or timing frame. -/
structure TxOut where
  /-- Mission levels. -/
  levels : List Nat
  /-- The first symbol that the release point substitutes, if one is. -/
  subFrom : Option Nat
  /-- Host bits that reach no far end. -/
  lost : Nat
  /-- JC as the frame carries it (R45). -/
  jc : JC
  enc : Nat
  std : Nat

/-- A PROT frame: mission, parked or empty, with the substitute of R22 from a late token on, or whole where the first token is late or a realignment releases the frame as a substitute. -/
def protFrame (s : State) (n : Lane) (t : HostTake) (recentre : Bool) : TxOut :=
  let l := s.lanes[n]
  let parked := s.txParked n
  let whole := l.lateTx == some 0 || l.realignTx
  let empty := recentre || whole
  let none_ := parked || empty
  let jc := if none_ then .nominal else t.jc
  let head := comma ++ headerLevels (txHeader s n jc empty).word
  let cut := match l.lateTx with | some k => if k = 0 then none else some (128 * k) | none => none
  let host := match cut with | some c => substTail s n t.host (infoIndex c) | none => t.host
  let info := if none_ then emptyInfo else frameInfo jc host
  let (coded, e) := encode l.enc 0 info
  let lost := if parked || recentre then 0 else if whole then t.host.length
    else match cut with | some c => t.host.length - infoIndex c | none => 0
  { levels := head ++ toLevels coded, subFrom := if whole then some 0 else cut, lost := lost, jc := jc, enc := e, std := l.stdTx }

/-- A BARE or STD200 timing frame of `k` symbols (R64, R66, R22): data, PRBS31Q while parked, and the substitute from a late token on. -/
def bareFrame (s : State) (n : Lane) (t : HostTake) (parts : List (List Bool)) (k : Nat) : TxOut :=
  let l := s.lanes[n]
  let cut := if l.realignTx then some 0 else l.lateTx.map (128 * ·)
  let data := if s.coding n = 1 then bareLevels parts else (List.range k).map (fun i => (Config.stdEncLevel l.stdTx t.host i).val)
  let std := if s.coding n = 1 then l.stdTx else Config.stdEncState l.stdTx t.host k
  let sub := bareLevels ((s.hostsOf n).map (fun h => genBits s.hosts[h].rxGen (isPairB s n h) (2 * k / max 1 (s.hostsOf n).length)))
  let mission := if s.txParked n then (List.range k).map (fun i => (Config.prbs31q (l.parkPos + i)).val) else data
  match cut with
  | some c =>
    { levels := mission.take c ++ (sub.take k).drop c, subFrom := some c, lost := if s.txParked n then 0 else (65536 * (k - c)) / k, jc := .nominal, enc := l.enc, std := std }
  | none => { levels := mission, subFrom := none, lost := 0, jc := .nominal, enc := l.enc, std := std }

/-- The symbols that leave for the DAC, `ahead` being the levels that follow where the framer does not fix them (R109, R110, R130). DESIGN CHOICE, log entry 73: a pattern or a waveform runs on through a late token, and the last two symbols of a frame look ahead within the source that sends it. -/
def txSymbols (s : State) (n : Lane) (o : TxOut) (k : Nat) (ahead : List Nat) : List TxSym :=
  let l := s.lanes[n]
  match txSrc s n with
  | 1 => (List.range (k + 2)).map (fun i => { lvl := some (patternSym (s.fget (ltxP n) ⟨0x040, 4, 2⟩) (l.srcPos + i)) })
  | 2 => (List.range (k + 2)).map (fun i => wavSym s n (l.srcPos + i))
  | _ =>
    let next := if s.coding n = 0 then comma.take 2
      else if s.txParked n then (List.range 2).map (fun i => (Config.prbs31q (l.parkPos + k + i)).val) else ahead
    let taps := ltxTaps s n
    let sub (i v : Nat) : Option Int := match o.subFrom with | some c => if c ≤ i then some (substCode taps v) else none | none => none
    ((o.levels.take k).zip (List.range k)).map (fun p => ({ lvl := some p.1, code := sub p.2 p.1 } : TxSym))
      ++ ((next ++ [1, 1]).take 2).map (fun v => ({ lvl := some v } : TxSym))

/-- The entries of the nonlinear table that the symbols of a frame address, after their history, the last two being look-ahead (R112). -/
def nlUsed : List (Option Nat) → List TxSym → List Nat
  | h, c :: q :: r :: rest =>
    (if c.code.isSome then [] else [nlAddr (h.headD (some 1)) c.lvl q.lvl]) ++ nlUsed ((c.lvl :: h).take 4) (q :: r :: rest)
  | _, _ => []

/-- The ECC words of TBLM and of the waveform memory that a frame's symbols are read from and that hold errors; a playback fetch found uncorrectable is WAV_PLAYBACK_UE's (R112, R127, R307, R309). -/
def txWords (s : State) (n : Lane) (nl : Bool) (k : Nat) (syms : List TxSym) : List (Nat × Nat) :=
  let band := min 4 (s.ffget (ltxP n) ⟨0x04C, 1, 3⟩)
  let base := nlOff n band (nlLive s n band) 0 / 4
  let bad := (List.range 16).filter (fun w => (List.range 4).any (fun i => s.chkErr (175 * 65536 + 4 * (base + w) + i) != 0))
  let used := if nl && !bad.isEmpty then nlUsed s.lanes[n].hist syms else []
  let c := s.rd (ra (ltxP n) 0x044)
  let wav := if txSrc s n = 2 then
      ((List.range k).map (fun i => (c % 65536 + (s.lanes[n].srcPos + i) % (c / 65536 + 1)) % 65536 / 4)).filter
        (fun w => !s.isUe ((152 + n) * 65536 + 4 * w) 4)
    else []
  (bad.filter (fun w => used.any (fun e => e / 4 == w))).map (fun w => (175, base + w)) ++ wav.map (fun w => (152 + n.val, w))

/-- The release of a frame: its codes to the DAC, the saturated symbols counted, and the histories carried on (R111 to R115, R274). DESIGN CHOICE, log entry 73: a pattern or a waveform stands still while LTXn or LFMn is parked. -/
def sendFrame (n : Lane) (o : TxOut) (k : Nat) (ahead : List Nat) (s : State) : State :=
  let l := s.lanes[n]
  let taps := ltxTaps s n
  let nl := s.ffget (ltxP n) ⟨0x04C, 0, 1⟩ == 1
  let ov := if pinsOff s n then [] else overlay s n k
  let syms := txSymbols s n o k ahead
  let r := txCodes s n taps nl ov l.hist 0 syms
  let inv := tb (s.rd (ra (ltxP n) 0x040)) 7
  let nsat := (r.filter (fun p => p.2)).length
  let src := txSrc s n
  let met := txWords s n nl k syms
  let std := s.coding n != 0
  let s := s.setLane n (fun l => { l with
    hist := ((syms.take k).reverse.map (fun x => x.lvl) ++ l.hist).take 4,
    txLevels := o.levels, txDac := r.map (fun p => if inv then -1 - p.1 else p.1),
    srcPos := if src = 0 then l.srcPos else l.srcPos + k,
    parkPos := if s.txParked n && std then l.parkPos + k else 0,
    enc := o.enc, stdTx := o.std, frameNo := l.frameNo + 1 })
  let s := ownerMet met (s.setWmk n (fun w => { w with pos := if s.ffget (wmkP n) wmkTxEn = 1 then w.pos + k else 0 }))
  let s := (addCtr (cLane n 0x38) nsat s).fset (ltxP n) ltxSrcActive src
  let was := s.flag (ltxP n) ltxSat
  let now := decide (s.fget (ltxP n) ⟨0x050, 16, 16⟩ < nsat)
  let s := s.setFlag (ltxP n) ltxSat now
  if now && !was then raise (evLane n 8) (min 127 nsat) s else s

/-- Whether the transmit side of a lane sends frames: it runs, in no dusk and no foreground calibration, with a usable framer, outside low power (R121, R219). -/
def State.txLive (s : State) (n : Lane) : Bool :=
  s.lanes[n].run && !s.dusky n && !s.cal[n].fg && !s.bad (lfmP n) && !s.lpDown

/-- LFM_JUST shows the fill in free mode, and 384 in locked mode, while the lane does not run, and while it is parked (R56, R68). -/
def showFill (n : Lane) (s : State) : State :=
  s.fset (lfmP n) lfmFill (if s.free n && s.lanes[n].run && !s.dusky n && !s.txParked n then justFill s n else 384)

/-- One line frame or timing frame is sent: the host bits of its period are taken, parked lanes discarding them, and the frame is released (R40, R45, R50, R56, R57, R161). -/
def txFrameOp (n : Lane) (hostA hostB : List Int) (ahead : List Nat) (s : State) : State :=
  let s := fireFrame n s
  let s := deskewRecentre n s
  let hs := s.hostsOf n
  let (arr, s) := hostArrive n hostA hostB s
  let a := nth [] arr 0
  let b := nth [] arr 1
  let recentre := s.lanes[n].excursion && s.free n
  let calm := s.setLane n (fun l => { l with excursion := false })
  let t : HostTake :=
    if s.txParked n then ⟨.nominal, [], if s.free n then justRecentre n a b calm else lostBits n (a.length + b.length) calm⟩
    else if recentre then ⟨.nominal, [], justRecentre n a b calm⟩
    else takeFrame n a b s
  let s := t.st
  let k := frameSymbols (s.coding n) s.lanes[n].frameNo
  let o := if s.coding n = 0 then protFrame s n t recentre else bareFrame s n t arr k
  let s := if o.lost = 0 then s else lostBits n o.lost s
  let s := sendFrame n o k ahead s
  let s := each (hs.zip arr) (fun p s => hrxAdvance n true p.1 p.2.length s) s
  let late := match s.lanes[n].lateTx with | some i => decide (0 < i) && s.coding n == 0 && !s.lanes[n].realignTx | none => false
  let s := s.setLane n (fun l => { l with mfc := (l.mfc + 1) % 256, subPrev := late, lateTx := none, realignTx := false })
  let jc := if s.coding n = 0 then o.jc.code else 0
  let s := if s.coding n = 0 then
      (match o.jc with
        | .plus => addCtr (cLane n 3) 1 s
        | .minus => addCtr (cLane n 4) 1 s
        | .nominal => s)
    else s
  showFill n (s.fset (lfmP n) lfmTxJc jc)

/-- The period of a frame that a running lane does not send, in dusk, Waking or foreground calibration: its host receivers go on, and their generators with them; no token can be late (R32, R152, R219). -/
def hostPeriod (n : Lane) (hostA hostB : List Int) (s : State) : State :=
  let s := deskewRecentre n s
  let (arr, s) := hostArrive n hostA hostB s
  each ((s.hostsOf n).zip arr) (fun p s => hrxAdvance n false p.1 p.2.length s) (s.setLane n (fun l => { l with lateTx := none }))

/-- TX_FRAME (R45). -/
def execTxFrame (n : Lane) (hostA hostB : List Int) (ahead : List (Fin 4)) (s : State) : Host.Outcome State Fault Refusal :=
  nxt (if !s.lanes[n].run || !mapEn (s.mapOf n) then s
  else if s.txLive n then txFrameOp n hostA hostB (ahead.map (fun x => x.val)) s
  else hostPeriod n hostA hostB s)

/-- LFM_JUST_OVF: the fill of a free-mode framer leaves 0 to 768 within a frame, with the samples that the host lanes have brought by then (R57). -/
def execLfmJustOvf (n : Lane) (above : Bool) (hostA hostB : List Int) (s : State) : Host.Outcome State Fault Refusal :=
  nxt (if s.txLive n && s.free n && s.coding n == 0 && !s.txParked n then
    let (arr, s) := hostArrive n hostA hostB s
    let s := justPush n (nth [] arr 0) (nth [] arr 1) (justExcursion n above s)
    showFill n (each ((s.hostsOf n).zip arr) (fun p s => hrxAdvance n true p.1 p.2.length s) s)
  else s)

/-- LATE_TOKEN: the first late token of a frame raises event 11 once and fixes where the substitute begins; a direction that delivers nothing, parked or in foreground calibration, releases no token (R22, R130, R153, R219). -/
def execLateToken (n : Lane) (rx : Bool) (token : Nat) (s : State) : Host.Outcome State Fault Refusal :=
  let l := s.lanes[n]
  if !(if rx then s.rxLive n && !s.stopped (lfmP n) && !s.bad (lfmP n) else s.txLive n) then nxt s
  else if (if rx then l.lateRx else l.lateTx).isSome then
    nxt (s.setLane n (fun l => if rx then { l with lateRx := l.lateRx.map (min token) } else { l with lateTx := l.lateTx.map (min token) }))
  else
    let occ := s.nextOcc
    let s := raise (evLane n 11) (bit rx) (s.setLane n (fun l => if rx then { l with lateRx := some token } else { l with lateTx := some token }))
    nxt (if rx then each (s.hostsOf n) (substOn 5 (some occ)) s else s)

/-! Current mode -/

/-- LTX_COMPLY: in current mode a pin outside 0.55 V to 1.35 V for more than 1 µs sets COMPLY (R119). -/
def execLtxComply (n : Lane) (pinP pinN above : Bool) (s : State) : Host.Outcome State Fault Refusal :=
  nxt (if s.fget (ltxP n) ltxOut = 2 ∧ pinsOff s n = false ∧ s.flag (ltxP n) ltxComply = false then
    addCtr (cLane n 0x3A) 1 (raise (evLane n 9) (bit pinP + 2 * bit pinN + 4 * bit above) (s.setFlag (ltxP n) ltxComply true))
  else s)

/-- COMPLY_CLEAR (R119). -/
def execComplyClear (n : Lane) (s : State) : Host.Outcome State Fault Refusal := nxt (s.setFlag (ltxP n) ltxComply false)

/-! Waveform memory -/

/-- The memory block of a lane's waveform memory (R298). -/
def wavMem (n : Nat) : Nat := 152 + n

/-- WAV_PLAYBACK_UE: a playback fetch of a sample finds its word uncorrectable; it is counted, and the first since a press raises event 10 (R127). -/
def execWavPlaybackUe (n : Lane) (sample : BitVec 16) (s : State) : Host.Outcome State Fault Refusal :=
  let w := sample.toNat / 4
  if txSrc s n = 2 ∧ s.isUe (wavMem n * 65536 + 4 * w) 4 then
    let s := addCtr (cLane n 0x39) 1 (readWord .owner (wavMem n) w s).2.2
    nxt (if s.lanes[n].wavUe then s
      else raise (evLane n 10) (sample.toNat / 512) (s.setLane n (fun l => { l with wavUe := true })))
  else nxt s

/-- An access of WAV_DATA: a write stores four samples at ADDR, a read shows them, 0xEEEE_EEEE with LAST_ERR cause 4 where uncorrectable, and ADDR advances by 4 (R126, R127). -/
def wavAccess (n : Lane) (write : Option Nat) (s : State) : Nat × State :=
  let w := s.fget (ltxP n) ⟨0x078, 2, 14⟩
  let s' := s.fset (ltxP n) ⟨0x078, 2, 14⟩ (w + 1)
  match write with
  | some v => (v, memWrite (wavMem n * 65536 + 4 * w) (bytesLE 4 v) s')
  | none =>
    let (bs, ue, s') := readWord .management (wavMem n) w s'
    if ue then (0xEEEEEEEE, lastErr (ltxP n) 0x07C 4 false false s') else (ofLE bs, s')

/-- The WAV_DATA register shows what the last access moved. -/
def wavData (n : Lane) (write : Option Nat) (s : State) : State :=
  let (v, s) := wavAccess n write s
  s.wr (ra (ltxP n) 0x07C) v

/-- WAV_DATA_ACCESS (R126). -/
def execWavDataAccess (n : Lane) (write : Option Word) (s : State) : Host.Outcome State Fault Refusal :=
  nxt (wavData n (write.map (fun v => v.toNat)) s)

/-! Nonlinear tables -/

/-- The copy of a set's live bank into its pending bank (R124). -/
def nlCopySet (n band : Nat) (live : Nat) (s : State) : State :=
  let src := 175 * 65536 + nlOff n band live 0
  memWrite (175 * 65536 + nlOff n band (1 - live) 0) (s.fetchN src 64) s

/-- The copies under way end (R124). -/
def nlCopyEnd (n : Lane) (s : State) : State :=
  let s := each ((List.range 5).filter (fun b => tb s.lanes[n].nlCopy b)) (fun b s => nlCopySet n b (nlLive s n b) s) s
  (s.setLane n (fun l => { l with nlCopy := 0 })).setFlag (ltxP n) ltxCopy false

/-- NL_COPY_DONE (R124). -/
def execNlCopyDone (n : Lane) (s : State) : Host.Outcome State Fault Refusal := nxt (nlCopyEnd n s)

/-- Every dirty set swaps banks, and the copies of the new live banks begin; copies still under way end first (R124). -/
def nlSwap (n : Lane) (s : State) : State :=
  let d := s.fget (ltxP n) ltxDirty
  if d = 0 then s
  else
    let s := if s.lanes[n].nlCopy = 0 then s else nlCopyEnd n s
    ((s.setLane n (fun l => { l with nlBank := l.nlBank ^^^ d, nlCopy := d })).fset (ltxP n) ltxDirty 0).setFlag (ltxP n) ltxCopy true

/-- An access of NL_DATA: the pending bank of the set addressed, after any copy of that set; a write makes the set dirty; ENTRY advances where AUTO_INC asks (R124, R131). -/
def nlAccess (n : Lane) (write : Option Nat) (s : State) : State :=
  let w := s.rd (ra (ltxP n) 0x070)
  let e := bits w 0 6
  let band := min 4 (bits w 6 3)
  let s := if tb s.lanes[n].nlCopy band then nlCopyEnd n s else s
  let off := nlOff n band (1 - nlLive s n band) e
  let a := 175 * 65536 + off
  let s := match write with
    | some v =>
      let b := eccBase a
      let old := s.fetchN b 4
      let bs := old.take (a - b) ++ [BitVec.ofNat 8 v] ++ old.drop (a - b + 1)
      ((memWrite b bs s).fset (ltxP n) ltxDirty (s.fget (ltxP n) ltxDirty ||| 2 ^ band)).wr (ra (ltxP n) 0x074) (v % 256)
    | none =>
      let (bs, ue, s) := readWord .management 175 (off / 4) s
      if ue then lastErr (ltxP n) 0x074 4 false false (s.wr (ra (ltxP n) 0x074) 0xEEEEEEEE)
      else s.wr (ra (ltxP n) 0x074) (nth 0 bs (off % 4)).toNat
  if tb w 9 then s.fset (ltxP n) ⟨0x070, 0, 6⟩ (e + 1) else s

/-- NL_DATA_ACCESS (R124). -/
def execNlDataAccess (n : Lane) (write : Option Word) (s : State) : Host.Outcome State Fault Refusal :=
  nxt (nlAccess n (write.map (fun v => v.toNat)) s)

end Sys2Proof.Machine
end

