-- ==== Sys2Proof/Machine/HostOut.lean ====
section
/-! DEFINITION. What a host transmitter sends: its output by the table of R154, its drive, and the delivery of a line lane's bits or their substitute to its host lanes (R18, R142 to R144, R152 to R154). -/

namespace Sys2Proof.Machine

/-- The taps in force of HTXh (R142). -/
def htxTaps (s : State) (h : Host16) : List Int := (List.range 6).map (fun i => sx 8 (s.inForce (ra (htxP h) (0x050 + 4 * i))))

/-- s_k in 1/128 from L_(k+2), L_(k+1), …: Σ c_i v / 3 held to ±1 and rounded half up (R142). -/
def htxDrive (taps : List Int) (inv : Bool) (w : List Nat) : Int :=
  let d := clampI (-128) 128 (roundHalfUp (2 * dotI taps (w.map vLevel)) 3)
  if inv then -d else d

/-- The drive of levels after their history, newest first; each value is that of the symbol two before the newest (R142). -/
def htxDrives (taps : List Int) (inv : Bool) : List Nat → List Nat → List Int × List Nat
  | h, [] => ([], h)
  | h, l :: r =>
    let h := (l :: h).take 6
    let (o, h') := htxDrives taps inv h r
    (htxDrive taps inv h :: o, h')

/-- A host transmitter sends the symbols of one frame period, `bits` being those that leave the buffer ahead of it: its data or, symbol by symbol, its substitute, which are counted where they are sent (R142, R144, R152 to R154). The parked path starts at the seed each time it begins. -/
def htxSend (n : Lane) (h : Host16) (bits : List (Option Bool)) (s : State) : State :=
  let k := bits.length / 2
  let x := s.hosts[h]
  let inv := tb (s.rd (ra (htxP h) 0x040)) 0
  let sel := s.fget (htxP h) ⟨0x040, 3, 2⟩
  let data := resolve (isPairB s n h) x.txGen bits
  let sub := (bits.filter (fun b => b.isNone)).length
  let go (l : List Nat) : List Int × List Nat := htxDrives (htxTaps s h) inv x.hist l
  let base (x : HostSt) : HostSt := { x with out := data, parkPos := 0, txGen := x.txGen + k }
  match htxOut s h with
  | .highZ | .idle => s.setHost h (fun x => { base x with drive := [] })
  | .parked =>
    let (d, hi) := go ((List.range k).map (fun i => (Config.prbs31q (x.parkPos + i)).val))
    s.setHost h (fun x => { base x with drive := d, hist := hi, parkPos := x.parkPos + k })
  | .pattern =>
    let (d, hi) := go ((List.range k).map (fun i => patternSym sel (x.patPos + i)))
    s.setHost h (fun x => { base x with drive := d, hist := hi, patPos := x.patPos + k })
  | .mission =>
    let (d, hi) := go (toLevels data)
    let s := s.setHost h (fun x => { base x with drive := d, hist := hi })
    if sub = 0 then s else addCtr (cSubstTx h) sub s

/-- One host lane's share of a frame enters the buffer ahead of its transmitter: its bits, of which those from index `keep` on are the substitute; SUBST and its cause show it where no higher row of R154 decides the output (R152, R154, R158, R162). -/
def hostShare (h : Host16) (cause : Nat) (keep : Nat) (bits : List Bool) (s : State) : State :=
  let keep := keep / 2 * 2
  let s := if bits.length ≤ keep || htxOut s h != .mission then substOff h s else substOn cause none h s
  s.setHost h (fun x => { x with buf := x.buf ++ (bits.take keep).map some ++ List.replicate (bits.length - keep) none })

/-- The delivery of a frame's host bits, in block order, to the host lanes of a line lane: those from block-order index `keep` on are substituted with a cause and counted in LOST_BITS (R18, R22, R46, R51, R61). -/
def deliver (n : Lane) (cause : Nat) (keep : Nat) (parts : List (List Bool)) (s : State) : State :=
  let hs := s.hostsOf n
  let two := hs.length == 2
  let total := parts.foldl (fun a l => a + l.length) 0
  let keepOf (i : Nat) : Nat :=
    if two then keep / 64 * 32 + (if i = 0 then min 32 (keep % 64) else keep % 64 - 32) else keep
  let s := each ((hs.zip parts).zip (List.range 2)) (fun p s => hostShare p.1.1 cause (keepOf p.2) p.1.2 s) s
  if keep < total then lostBits n (total - keep) s else s

/-- The bits that leave to each host transmitter of a line lane in a frame period: its share of 65,536 in locked mode, and in free mode two for each symbol that the regenerated clock has released (R157, R158, R162). -/
def hostPeriodBits (s : State) (n : Lane) (released : Nat) : Nat :=
  if s.free n then 2 * released else 65536 / max 1 (pairCount s n)

/-- The host transmitters of a line lane take `k` bits each from the buffer ahead of them; bits missing are substitutes, counted as lost, and the fill's leaving its range is remembered until the frame boundary (R158, R163). -/
def hostExit (n : Lane) (k : Nat) (s : State) : State :=
  let hs := s.hostsOf n
  let short := hs.foldl (fun a (h : Host16) => a + (k - s.hosts[h].buf.length)) 0
  let s := each hs (fun (h : Host16) s =>
    let b := s.hosts[h].buf
    htxSend n h (b.take k ++ List.replicate (k - b.length) none) (s.setHost h (fun x => { x with buf := x.buf.drop k }))) s
  let way := if short ≠ 0 then 2 else if elasticTop (s.free n) < elasticFill s n then 1 else s.lanes[n].elastic
  let s := s.setLane n (fun l => { l with elastic := way })
  desyncShow n (if short = 0 then s else lostBits n short s)

/-- Host lanes of a line receiver that delivers nothing, stopped, UNUSABLE or in foreground calibration, send their parked path for a frame period; no token is late there (R22, R153, R219). -/
def deliverParked (n : Lane) (released : Nat) (s : State) : State :=
  let k := hostPeriodBits s n released
  let s := elasticReset n (s.setLane n (fun l => { l with lateRx := none, realignRx := false }))
  each (s.hostsOf n) (fun (h : Host16) s => htxSend n h (List.replicate k none) (substOff h s)) s

end Sys2Proof.Machine
end

