-- ==== Sys2Proof/Machine/Monitor.lean ====
section
/-! DEFINITION. The outer-code monitor of a line lane: the arithmetic of GF(2^10), the decoder of RS(544,514) that it runs, and how it assembles codewords from the host bits delivered and counts them (R102, R103; log entry 75). -/

namespace Sys2Proof.Machine

/-! GF(2^10) -/

/-- α times an element: the field polynomial is x^10 + x^3 + 1 (log entry 75). -/
def gfAlpha (a : Nat) : Nat := if 512 ≤ a then (2 * a) ^^^ 0x409 else 2 * a

/-- The product of two elements, over the low `k` bits of the second. -/
def gfMulK : Nat → Nat → Nat → Nat
  | 0, _, _ => 0
  | k + 1, a, b => (if tb b 0 then a else 0) ^^^ gfMulK k (gfAlpha a) (b / 2)

/-- The product of two elements. -/
def gfMul (a b : Nat) : Nat := gfMulK 10 a b

/-- A power of an element. -/
def gfPow (a : Nat) : Nat → Nat
  | 0 => 1
  | k + 1 => gfMul a (gfPow a k)

/-- The inverse of an element other than 0: its power 2^10 − 2, as a product of squares. -/
def gfInv (a : Nat) : Nat := ((List.range 9).foldl (fun (x : Nat × Nat) _ => let q := gfMul x.1 x.1; (q, gfMul x.2 q)) (a, 1)).2

/-- The value of a polynomial, its highest coefficient first. -/
def gfEval (x : Nat) (p : List Nat) : Nat := p.foldl (fun a c => gfMul a x ^^^ c) 0

/-! RS(544,514) -/

/-- The 30 syndromes of a codeword, its first symbol being the highest coefficient: the generator's roots are α^0 to α^29 (log entry 75). -/
def rsSyndromes (cw : List Nat) : List Nat := (List.range 30).map (fun j => gfEval (gfPow 2 j) cw)

/-- A step of the Berlekamp–Massey algorithm's state: the locator, lowest coefficient first, the locator before its last growth, that growth's discrepancy, the length, and the steps since. -/
structure BmSt where
  cur : List Nat := [1]
  old : List Nat := [1]
  disc : Nat := 1
  len : Nat := 0
  gap : Nat := 1
  deriving DecidableEq, Repr

/-- The sum of two polynomials, lowest coefficient first. -/
def gfAdd : List Nat → List Nat → List Nat
  | a :: p, b :: q => (a ^^^ b) :: gfAdd p q
  | [], q => q
  | p, [] => p

/-- The step at syndrome `i`. -/
def bmStep (syn : List Nat) (m : BmSt) (i : Nat) : BmSt :=
  let d := (List.range (m.len + 1)).foldl (fun a j => if j ≤ i then a ^^^ gfMul (nth 0 m.cur j) (nth 0 syn (i - j)) else a) 0
  if d = 0 then { m with gap := m.gap + 1 }
  else
    let c := gfMul d (gfInv m.disc)
    let next := gfAdd m.cur (List.replicate m.gap 0 ++ m.old.map (gfMul c))
    if 2 * m.len ≤ i then { cur := next, old := m.cur, disc := d, len := i + 1 - m.len, gap := 1 }
    else { m with cur := next, gap := m.gap + 1 }

/-- The symbols in error of a codeword of 544 symbols where they are 15 at most; none where it is uncorrectable: the error locator has a root at as many of the 544 places as its length (R102, R103). -/
def rsErrors (cw : List Nat) : Option Nat :=
  let syn := rsSyndromes cw
  if syn.all (fun x => x == 0) then some 0
  else
    let m := (List.range 30).foldl (bmStep syn) {}
    let inv := gfInv 2
    let roots := ((List.range 544).foldl (fun (x : Nat × Nat) _ => (gfMul x.1 inv, x.2 + bit (gfEval x.1 m.cur.reverse == 0))) (1, 0)).2
    if m.len ≤ 15 ∧ roots = m.len then some m.len else none

/-! The monitor -/

/-- LRX_STAT.MON_STATE: 0 off, 1 HUNT, 2 ALIGNED, 3 PARTIAL (R107). -/
def monState : Fld := ⟨0x05C, 6, 2⟩

/-- The FEC symbol distribution that ERR_CTRL.MON_FMT names; 0 where the monitor is off (R102, R107). -/
def monFmt (s : State) (n : Lane) : Nat := s.fget (lrxP n) ⟨0x050, 14, 2⟩ % 3

/-- Codeword `c` of a marker period. -/
def monWord (fmt : Nat) (bits : List Bool) (c : Nat) : List Nat :=
  (List.range 544).map (fun i => ofMsb ((List.range 10).map (fun j => nth false bits (Config.monPlace fmt c i j))))

/-- A codeword is counted: checked, corrected or uncorrectable, with its bin (R103). -/
def monCount (n : Lane) (r : Option Nat) (s : State) : State :=
  let s := addCtr (cLane n 0x18) 1 s
  match r with
  | none =>
    let s := s.setLane n (fun l => { l with fig := { l.fig with uncorr := l.fig.uncorr + 1 } })
    addCtr (cLane n 0x30) 1 (addCtr (cLane n 0x1B) 1 s)
  | some k =>
    let s := if k = 0 then s else addCtr (cLane n 0x1A) k (addCtr (cLane n 0x19) 1 s)
    addCtr (cLane n (0x20 + k)) 1 s

/-- The monitor looks for markers anew: where it is on it reads HUNT (R102). -/
def monHunt (n : Lane) (s : State) : State :=
  let fmt := monFmt s n
  (s.setLane n (fun l => { l with mon := { fmt := fmt } })).fset (lrxP n) monState (if fmt = 0 then 0 else 1)

/-- The host bits of a frame delivered pass the monitor: markers are sought, and each whole marker period's codewords are decoded and counted (R102, R103). -/
def monRun (n : Lane) (host : List Bool) (s : State) : State :=
  let fmt := monFmt s n
  if fmt = 0 ∨ s.lanes[n].mon.fmt ≠ fmt then monHunt n s
  else
    let (size, words) := Config.monPeriod fmt
    let m := s.lanes[n].mon
    let m := { m with bits := m.bits ++ host }
    let m := if m.found then m
      else match Config.monAlign fmt m.bits with
        | some (k, whole) => { m with found := true, whole := whole, bits := m.bits.drop k }
        | none => { m with bits := newest (2 * size) m.bits }
    let k := if m.found && m.whole then m.bits.length / size else 0
    let cws := (List.range k).flatMap (fun p => (List.range words).map (monWord fmt (m.bits.drop (p * size))))
    let rest := if m.found && !m.whole then [] else m.bits.drop (k * size)
    let s := s.setLane n (fun l => { l with mon := { m with bits := rest } })
    let s := s.fset (lrxP n) monState (if !m.found then 1 else if m.whole then 2 else 3)
    each cws (fun c s => monCount n (rsErrors c) s) s

end Sys2Proof.Machine
end

