-- ==== Sys2Proof/Machine/Timing.lean ====
section
/-! DEFINITION. Timing modes and latency: reference clocks, holdover and realignment, the buffers that recentre, the latency meter, the device time counter and PPS (R157 to R175). -/

namespace Sys2Proof.Machine

/-- LAT_CTRL.EN and LAT_WIN (R174). -/
def latEn : Fld := ⟨0x040, 0, 1⟩
/-- LAT_CTRL.LAT_WIN. -/
def latWinF : Fld := ⟨0x040, 1, 4⟩
/-- PPS_STAT.PPS_CNT. -/
def ppsCnt : Fld := ⟨0x06C, 0, 16⟩
/-- PPS_STAT.PPS_OK. -/
def ppsOk : Fld := ⟨0x06C, 16, 1⟩

/-- The store of a register of page LAT by its row (R11, R174). -/
def latStore (off v : Nat) (s : State) : State :=
  match rowAt .lat off with
  | some (r, _) => s.wr (ra 0x00D off) (r.store r.rw (s.rd (ra 0x00D off)) v)
  | none => s

/-- A reference clock stops or leaves 500 ppm of nominal (R159). -/
def refclkLossOp (line : Bool) (s : State) : State :=
  let f := if line then clkRefl else clkRefh
  if s.flag 0x007 f then
    let occ := s.nextOcc
    let s := raise (if line then 17 else 16) 0 (((s.setFlag 0x007 f false)).fset 0x007 ⟨0x044, 0, 16⟩ 0)
    if line then each (List.finRange 8) (fun n s => holdCheck n (some occ) s) s else s
  else s

/-- REFCLK_LOSS (R159). -/
def execRefclkLoss (line : Bool) (s : State) : Host.Outcome State Fault Refusal := nxt (refclkLossOp line s)

/-- REFCLK_OK: 1 ms within 200 ppm sets the OK bit, and REF_PPM shows the offset while both clocks are present (R159, R173). -/
def execRefclkOk (line : Bool) (ppm : Int) (s : State) : Host.Outcome State Fault Refusal :=
  let s := s.setFlag 0x007 (if line then clkRefl else clkRefh) true
  nxt (if s.flag 0x007 clkRefh && s.flag 0x007 clkRefl then s.fset 0x007 ⟨0x044, 0, 16⟩ (enc2 16 ppm) else s)

/-- SOURCE_FIRST_GOOD: the source has been good for 1 ms since the restart, and the clock slews to it (R160, R161 item 1). -/
def execSourceFirstGood (n : Lane) (rx : Bool) (s : State) : Host.Outcome State Fault Refusal :=
  let l := s.lanes[n]
  let fresh := if rx then !l.goodRx && l.slewRx == 0 else !l.goodTx && l.slewTx == 0
  nxt (if l.run && fresh && s.sourceOk n rx then
    s.setLane n (fun l => if rx then { l with slewRx := 1 } else { l with slewTx := 1 })
  else s)

/-- HOLDOVER_END: the cause of a holdover has been absent for 1 ms, and the clock slews (R161). -/
def execHoldoverEnd (n : Lane) (rx : Bool) (s : State) : Host.Outcome State Fault Refusal :=
  let l := s.lanes[n]
  nxt (if (if rx then l.holdRx else l.holdTx) && s.sourceOk n rx then
    holdBit n (s.setLane n (fun l =>
      if rx then { l with holdRx := false, slewRx := 2 } else { l with holdTx := false, slewTx := 2 }))
  else s)

/-- REALIGN: the first frame boundary after a slew. After the first slew the release delay takes force with nothing more; after a holdover's, the next frame is a substitute and event 19 is raised, as a consequence of the event 18 that named the clock (R160, R161, R397). -/
def execRealign (n : Lane) (rx : Bool) (s : State) : Host.Outcome State Fault Refusal :=
  let slew := if rx then s.lanes[n].slewRx else s.lanes[n].slewTx
  nxt (if slew = 1 then
    latSpoil n (s.setLane n (fun l => if rx then { l with slewRx := 0, goodRx := true } else { l with slewTx := 0, goodTx := true }))
  else if slew = 2 then
    let s := s.setLane n (fun l => if rx then { l with slewRx := 0, realignRx := true } else { l with slewTx := 0, realignTx := true })
    let s := if rx then each (s.hostsOf n) (substOn 6 none) s else s
    let d := n.val + 8 * bit rx
    latSpoil n (raiseAfter 19 d (s.waiting 18 (fun x => x == d)) s)
  else s)

/-- A host lane's part of the buffer at its middle: the oldest bits dropped, or substitute bits inserted after the newest. DESIGN CHOICE, log entry 72. -/
def elasticMend (mid : Nat) (h : Host16) (s : State) : State :=
  s.setHost h (fun x => { x with
    buf := if mid ≤ x.buf.length then x.buf.drop (x.buf.length - mid) else x.buf ++ List.replicate (mid - x.buf.length) none })

/-- The recentring, at the frame boundary after its fill has left its range, of the buffer ahead of the host transmitters, the slip buffer to 64 and the desynchroniser to 512: bits are dropped or substituted and counted, the desynchroniser counts the recentre, and event 20 is raised (R158, R163). -/
def elasticRecentre (n : Lane) (s : State) : State :=
  let way := s.lanes[n].elastic
  if way = 0 then s
  else
    let hs := s.hostsOf n
    let mid := elasticMid (s.free n) / max 1 hs.length
    let moved := hs.foldl (fun a (h : Host16) => a + (s.hosts[h].buf.length - mid) + (mid - s.hosts[h].buf.length)) 0
    let s := each hs (elasticMend mid) (s.setLane n (fun l => { l with elastic := 0 }))
    let s := onlyIf (s.free n) (addCtr (0x00008 + n) 1) (lostBits n moved s)
    raise 20 (n + 8 * bit (way == 2)) (desyncShow n s)

/-- DESYNC_RECENTRE: the desynchroniser of a free-mode lane whose fill has left 0 to 1,023 recentres to 512 (R163). -/
def execDesyncRecentre (n : Lane) (s : State) : Host.Outcome State Fault Refusal :=
  nxt (if s.lanes[n].run && s.free n then elasticRecentre n s else s)

/-- SLIP_BUFFER_RECENTRE: the slip buffer of a locked receiver whose fill has left 0 to 127 recentres to 64 (R158). -/
def execSlipBufferRecentre (n : Lane) (s : State) : Host.Outcome State Fault Refusal :=
  nxt (if s.lanes[n].run && !s.free n then elasticRecentre n s else s)

/-- DESKEW_RECENTRE: the deskew buffer of a 400 Gb/s lane whose fill has left 0 to 511 recentres to 256 on host lane B (R151). -/
def execDeskewRecentre (n : Lane) (s : State) : Host.Outcome State Fault Refusal :=
  nxt (if s.lanes[n].run then deskewRecentre n s else s)

/-- Whether a measurement is of the lane, direction and host lane that LAT_SEL names; HOST counts only for transmit at 400 Gb/s (R174). -/
def latSelected (n : Lane) (rx hostB : Bool) (s : State) : Bool :=
  let w := s.rd (ra 0x00D 0x044)
  let useHost := !rx && mapRate (s.mapOf n) == 0
  bits w 0 3 == n.val && tb w 3 == rx && (!useHost || tb w 4 == hostB)

/-- Whether a measurement falls in a time that makes its window invalid: holdover, realignment, a source not yet good, LOS or no frame lock (R160, R169). -/
def latSpoilt (n : Lane) (rx : Bool) (s : State) : Bool :=
  let l := s.lanes[n]
  l.holdTx || l.holdRx || l.realignTx || l.realignRx || (if rx then !l.goodRx else !l.goodTx)
    || s.flag (lrxP n) lrxLos || s.fget (lfmP n) lfmFstate != 2

/-- Whether a window of the meter that begins now overlaps such a time from its start on (R169). -/
def latBadNow (s : State) : Bool :=
  let w := s.rd (ra 0x00D 0x044)
  latSpoilt (Fin.ofNat 8 (bits w 0 3)) (tb w 3) s

/-- LATENCY_MEASUREMENT: one measurement of an enabled lane enters the window of LAT_SEL and the lane's own window for LAT frames (R168, R169, R286). -/
def execLatencyMeasurement (n : Lane) (rx hostB : Bool) (fs : Nat) (s : State) : Host.Outcome State Fault Refusal :=
  if s.flag 0x00D latEn && s.lanes[n].run && mapEn (s.mapOf n) then
    let bad := latSpoilt n rx s
    let i := if rx then 2 else if hostB then 1 else 0
    let size := 2 ^ s.fget 0x00D latWinF
    let s := s.setWmk n (fun w =>
      if bad then { w with lat := kput 0 w.lat (20 + i) 0 }
      else
        let c := kget 0 w.lat (20 + i)
        let sum := (if c = 0 then 0 else kget 0 w.lat (10 + i)) + fs
        let m := kput 0 (kput 0 w.lat (10 + i) sum) (20 + i) (c + 1)
        { w with lat := if size ≤ c + 1 then kput 0 (kput 0 (kput 0 m i ((2 * sum + (c + 1)) / (2 * (c + 1)))) (30 + i) 1) (20 + i) 0 else m })
    nxt (if latSelected n rx hostB s then
      { s with time := { s.time with
          latWin := fs :: s.time.latWin, latBad := s.time.latBad || bad, latFree := s.time.latFree || s.free n } }
    else s)
  else nxt s

/-- LAT_WINDOW_PUBLISH: after 2^LAT_WIN measurements mean, minimum and maximum are published, zero where the window is invalid (R169). -/
def execLatWindowPublish (s : State) : Host.Outcome State Fault Refusal :=
  let t := s.time
  let k := t.latWin.length
  nxt (if s.flag 0x00D latEn && 2 ^ s.fget 0x00D latWinF ≤ k then
    let sum := t.latWin.foldl (· + ·) 0
    let lo := t.latWin.foldl min (t.latWin.headD 0)
    let hi := t.latWin.foldl max 0
    { s with time := { t with
        latWin := [], latBad := latBadNow s, latFree := false, latNew := true, latSeq := (t.latSeq + 1) % 65536,
        latPub := if t.latBad then (0, 0, 0, false, t.latFree) else ((2 * sum + k) / (2 * k), lo, hi, true, t.latFree) } }
  else s)

/-- LAT_STAT_READ: the view is fixed on the last publication and READY is reported once (R169). -/
def latStatRead (s : State) : State :=
  let t := s.time
  let (mean, lo, hi, valid, free) := t.latPub
  let on := s.flag 0x00D latEn
  let v := t.latSeq % 65536 + bit (on && valid) * 2 ^ 16 + bit (on && t.latNew) * 2 ^ 17 + bit free * 2 ^ 18
  let z (x : Nat) : Nat := if on then x else 0
  let s := (((s.wr (ra 0x00D 0x048) v).wr (ra 0x00D 0x04C) (z mean)).wr (ra 0x00D 0x050) (z lo)).wr (ra 0x00D 0x054) (z hi)
  { s with time := { s.time with latNew := false } }

/-- LAT_STAT_READ (R169). -/
def execLatStatRead (s : State) : Host.Outcome State Fault Refusal := nxt (latStatRead s)

/-- The window of the meter restarts: nothing is valid until the next publication (R169). -/
def latRestart (s : State) : State :=
  let s := each [0x04C, 0x050, 0x054] (fun o s => s.wr (ra 0x00D o) 0) s
  let s := s.fset 0x00D ⟨0x048, 16, 2⟩ 0
  { s with time := { s.time with
      latWin := [], latBad := latBadNow s, latFree := false, latNew := false, latPub := (0, 0, 0, false, false) } }

/-- A write of LAT_SEL (R169). -/
def latSelWrite (v : Nat) (s : State) : State := latRestart (latStore 0x044 v s)

/-- LAT_SEL_WRITE (R169). -/
def execLatSelWrite (v : Word) (s : State) : Host.Outcome State Fault Refusal := nxt (latSelWrite v.toNat s)

/-- A write of LAT_CTRL: a change of EN or LAT_WIN restarts the window, and with it every lane's own windows of that length (R169, R286). -/
def latCtrlWrite (v : Nat) (s : State) : State :=
  let t := latStore 0x040 v s
  if t.rd (ra 0x00D 0x040) = s.rd (ra 0x00D 0x040) then t
  else each (List.finRange 8) (fun n s => s.setWmk n (fun w => { w with lat := [] })) (latRestart t)

/-- LAT_CTRL_WRITE (R169). -/
def execLatCtrlWrite (v : Word) (s : State) : Host.Outcome State Fault Refusal := nxt (latCtrlWrite v.toNat s)

/-- A read of DTC_LO snapshots both halves of the device time counter (R170). -/
def dtcLoRead (s : State) : State :=
  (s.wr (ra 0x00D 0x058) s.time.dtc.toNat).wr (ra 0x00D 0x05C) (s.time.dtc.toNat / 2 ^ 32)

/-- DTC_LO_READ (R170). -/
def execDtcLoRead (s : State) : Host.Outcome State Fault Refusal := nxt (dtcLoRead s)

/-- PPS_EDGE: an edge of the polarity chosen captures the time, counts, and may raise event 21; PPS_OK sets at the second edge in a row spaced 0.5 s to 1.5 s (R171). -/
def execPpsEdge (falling : Bool) (s : State) : Host.Outcome State Fault Refusal :=
  let c := s.rd (ra 0x00D 0x060)
  nxt (if tb c 0 && tb c 1 == falling then
    let gap := (s.cycles + 2 ^ 48 - s.time.ppsTs.toNat / 65536) % 2 ^ 48
    let good := if s.time.ppsSeen && decide (78125000 ≤ gap ∧ gap ≤ 234375000) then min 2 (s.time.ppsGood + 1) else 0
    let s := { s with time := { s.time with ppsTs := s.time.dtc, ppsSeen := true, ppsGood := good } }
    let s := s.fadd 0x00D ppsCnt 1
    let s := if good = 2 then s.setFlag 0x00D ppsOk true else s
    if tb c 2 then raise 21 (s.fget 0x00D ppsCnt % 128) s else s
  else s)

/-- A read of PPS_TS_LO snapshots both halves of the timestamp (R171). -/
def ppsTsLoRead (s : State) : State :=
  (s.wr (ra 0x00D 0x064) s.time.ppsTs.toNat).wr (ra 0x00D 0x068) (s.time.ppsTs.toNat / 2 ^ 32)

/-- PPS_TS_LO_READ (R171). -/
def execPpsTsLoRead (s : State) : Host.Outcome State Fault Refusal := nxt (ppsTsLoRead s)

/-- PPS_TIMEOUT: no edge for 1.5 s clears PPS_OK and raises event 22 (R171). -/
def execPpsTimeout (s : State) : Host.Outcome State Fault Refusal :=
  nxt (if s.flag 0x00D ppsOk then
    raise 22 0 { s.setFlag 0x00D ppsOk false with time := { s.time with ppsGood := 0 } }
  else { s with time := { s.time with ppsGood := 0 } })

/-- The device time counter advances by one REFCLK_HOST cycle (R170; log entry 9). -/
def tickDtc (s : State) : State := { s with time := { s.time with dtc := s.time.dtc + 65536 } }

end Sys2Proof.Machine
end

