-- ==== Sys2Proof/Machine/LineRx.lean ====
section
/-! DEFINITION. The receive side of a line lane: signal detect and clock recovery, frame lock and headers, the detectors' decisions and what reaches the host, clip blocks, gradient sets and quality windows (R46, R52, R58 to R67, R75, R79, R80, R86 to R105). -/

namespace Sys2Proof.Machine

/-- The coefficients of LRXn in force (R81, R82, R85, R107). -/
def rxCoef (s : State) (n : Lane) : RxCoef :=
  let f (o : Nat) : Nat := s.inForce (ra (lrxP n) o)
  let m := s.rd (ra (lrxP n) 0x040)
  { ffe := (List.range 41).map (fun i => sx 10 (f (0x070 + 4 * i))), dfe := (List.range 5).map (fun i => sx 8 (f (0x114 + 4 * i))),
    lvl := levelPair (f 0x128) ++ levelPair (f 0x12C), h1 := (f 0x130 % 512 : Nat), main := bits m 0 5, dfeOn := tb m 5 }

/-! Lock, loss and signal detect -/

/-- The accumulating gradient set of a line lane is discarded (R98). -/
def gradDrop (n : Lane) (s : State) : State := s.setLane n (fun l => { l with fig := l.fig.gradDrop })

/-- Frame lock is lost: from SYNC with event 1 and its counter (R60, R105). DESIGN CHOICE, log entry 76: MISS_CNT, given in SYNC only, keeps its value until the next lock. -/
def frameLost (n : Lane) (after : Option Nat) (s : State) : State :=
  let st := s.fget (lfmP n) lfmFstate
  if st = 3 then s
  else
    let s := latSpoil n (s.fset (lfmP n) lfmFstate 0)
    if st = 2 then addCtr (cLane n 9) 1 (raiseC (evLane n 1) 0 after s) else s

/-- The occurrences of a line lane's loss that wait to be logged, loss of frame, LOS and the substitutes they have caused: its lock comes after them (R401). -/
def lossWaiting (s : State) (n : Lane) : List Nat :=
  s.waiting (evLane n 1) (fun _ => true) ++ s.waiting (evLane n 17) (fun _ => true) ++ (s.hostsOf n).flatMap (fun (h : Host16) => s.waiting (evHost h 4) (fun _ => true))

/-- FSTATE enters SYNC, with event 0 (R60, R401). -/
def frameLock (n : Lane) (s : State) : State :=
  if s.fget (lfmP n) lfmFstate = 2 then s
  else raiseAfter (evLane n 0) 0 (lossWaiting s n) ((s.fset (lfmP n) lfmFstate 2).fset (lfmP n) lfmMiss 0)

/-- A BARE receiver is locked while clock recovery is locked and a signal is present; on gaining lock at 400 Gb/s it fixes the pair phase, which the spec does not name (R64, R65; log entry 15). -/
def bareCheck (n : Lane) (after : Option Nat) (s : State) : State :=
  if s.coding n = 1 ∧ s.fget (lfmP n) lfmFstate ≠ 3 then
    if !s.flag (lrxP n) lrxLos && s.flag (lrxP n) lrxCdr then
      if s.fget (lfmP n) lfmFstate = 2 then s
      else
        let (x, s) := if s.rate n = 0 then s.draw 1 else (0, s)
        frameLock n (s.fset (lfmP n) ⟨0x048, 15, 1⟩ x)
    else frameLost n after s
  else s

/-- LRX_STAT's figures while LOS = 1: EQF and the error estimates read 0 (R99, R100). -/
def clearFigures (n : Lane) (s : State) : State := (s.fset (lrxP n) ⟨0x060, 0, 16⟩ 0).wr (ra (lrxP n) 0x064) 0

/-- LOS_ASSERT as an operation: LOS sets with event 17; the framer goes to HUNT and the host lanes to the substitute, and clocks that follow the line go into holdover; it is logged after a loss of frame that came first (R104, R105, R160, R401). -/
def losAssertOp (n : Lane) (s : State) : State :=
  if !s.rxLive n || s.flag (lrxP n) lrxLos then s
  else
    let occ := s.nextOcc
    let lof := s.waiting (evLane n 1) (fun _ => true)
    let s := addCtr (cLane n 0x13) 1 (raiseAfter (evLane n 17) 0 lof (clearFigures n (gradDrop n (s.setFlag (lrxP n) lrxLos true))))
    let s := frameLost n (some occ) s
    let s := if s.stopped (lfmP n) then s else each (s.hostsOf n) (substOn 1 (some occ)) s
    calCheck n (holdCheck n (some occ) s)

/-- LOS_ASSERT: 64 consecutive blocks have stayed below the assert level (R104). -/
def execLosAssert (n : Lane) (s : State) : Host.Outcome State Fault Refusal :=
  nxt (if 64 ≤ s.lanes[n].fig.below then losAssertOp n s else s)

/-- LOS_DEASSERT: 1,024 consecutive blocks have stayed above the deassert level (R104). -/
def execLosDeassert (n : Lane) (s : State) : Host.Outcome State Fault Refusal :=
  nxt (if s.rxLive n && s.flag (lrxP n) lrxLos && decide (1024 ≤ s.lanes[n].fig.above) then
    calCheck n (bareCheck n none (s.setFlag (lrxP n) lrxLos false))
  else s)

/-- CDR_LOCK (R79). -/
def execCdrLock (n : Lane) (s : State) : Host.Outcome State Fault Refusal :=
  nxt (if s.rxLive n && !s.flag (lrxP n) lrxCdr then calCheck n (bareCheck n none (s.setFlag (lrxP n) lrxCdr true)) else s)

/-- CDR_UNLOCK (R79, R160). -/
def execCdrUnlock (n : Lane) (s : State) : Host.Outcome State Fault Refusal :=
  nxt (if s.flag (lrxP n) lrxCdr then
    calCheck n (holdCheck n none (bareCheck n none (gradDrop n (s.setFlag (lrxP n) lrxCdr false))))
  else s)

/-! Headers -/

/-- LFM_STAT.ID_MISMATCH. -/
def lfmIdMis : Fld := ⟨0x048, 14, 1⟩

/-- The FAR fields and LFM_HDR_RX of an accepted header (R46, R68). -/
def showHeader (n : Lane) (w : Nat) (s : State) : State :=
  let h := headerOf w
  let st := s.rd (ra (lfmP n) 0x048)
  let st := setBits (setBits (setBits (setBits (setBits (setBits (setBits st 5 3 h.laneId) 8 2 h.rate) 10 1 (bit h.parked)) 11 1 (bit h.empty)) 12 1 (bit h.rdi)) 13 1 (bit h.wmkOn)) 16 8 h.mfc
  (s.wr (ra (lfmP n) 0x048) st).wr (ra (lfmP n) 0x050) w

/-- ID_MISMATCH follows an accepted header, with event 3 as it rises (R52). -/
def idCheck (n : Lane) (w : Nat) (s : State) : State :=
  let h := headerOf w
  let m := s.rd (ra (lfmP n) 0x040)
  let rateBad := h.rate != bits m 2 2
  let mis := h.laneId != bits m 8 3 || rateBad
  let was := s.flag (lfmP n) lfmIdMis
  let s := s.setFlag (lfmP n) lfmIdMis mis
  if mis && !was then raise (evLane n 3) (bit rateBad * 64 + h.laneId) s else s

/-- An accepted header: its fields, the lane identity, the frame count, and the rises of PARKED and RDI (R46, R52, R63, R69). -/
def acceptHeader (n : Lane) (w : Nat) (s : State) : State :=
  let h := headerOf w
  let wasParked := tb (s.rd (ra (lfmP n) 0x048)) 10
  let wasRdi := tb (s.rd (ra (lfmP n) 0x048)) 12
  let slip : Bool := match s.lanes[n].rxMfc with | some m => decide ((m + 1) % 256 ≠ h.mfc) | none => false
  let s := idCheck n w (showHeader n w s)
  let s := onlyIf slip (raise (evLane n 4) (h.mfc % 128)) s
  let s := if h.parked && !wasParked then raise (evLane n 6) 0 s else s
  let s := if h.rdi && !wasRdi then raise (evLane n 7) 0 s else s
  let s := if h.subPrev then addCtr (cLane n 11) 1 s else s
  s.setLane n (fun l => { l with rxMfc := some h.mfc, hdrFails := 0, hdrBad := false })

/-- A header that fails its CRC: counted, and in SYNC the eighth in a row raises event 2 once (R46, R62). -/
def failHeader (n : Lane) (s : State) : State :=
  let l := s.lanes[n]
  let k := if s.fget (lfmP n) lfmFstate = 2 then l.hdrFails + 1 else l.hdrFails
  let s := addCtr (cLane n 1) 1 (s.setLane n (fun l => { l with hdrFails := k, hdrBad := l.hdrBad || k == 8, rxMfc := l.rxMfc.map (fun m => (m + 1) % 256) }))
  if k = 8 ∧ l.hdrBad = false then raise (evLane n 2) 0 s else s

/-- The header of a frame at its expected position, in PRESYNC as in SYNC (R46, R58). -/
def takeHeader (n : Lane) (w : Nat) (s : State) : State :=
  let jc := JC.ofCode (jcMajority w)
  let s := s.fset (lfmP n) lfmRxJc jc.code
  let s := if jcDisagree w then addCtr (cLane n 2) 1 s else s
  let s := if headerOk w then acceptHeader n w s else failHeader n s
  let s := match jc with | .plus => addCtr (cLane n 5) 1 s | .minus => addCtr (cLane n 6) 1 s | .nominal => s
  let st := s.rd (ra (lfmP n) 0x048)
  let s := if tb st 11 then addCtr (cLane n 7) 1 s else s
  if tb st 10 then addCtr (cLane n 8) 1 s else s

/-! Received frames -/

/-- The comma check at the expected position: the third in PRESYNC completes lock, the first miss there and the fourth in SYNC lead to HUNT (R59, R60). -/
def commaStep (n : Lane) (hit : Bool) (s : State) : State :=
  let st := s.fget (lfmP n) lfmFstate
  let l := s.lanes[n]
  if st = 1 then
    if l.found then s.setLane n (fun l => { l with found := false })
    else if hit then
      if l.preCnt + 1 = 3 then frameLock n (s.setLane n (fun l => { l with hdrFails := 0, hdrBad := false }))
      else s.setLane n (fun l => { l with preCnt := l.preCnt + 1 })
    else addCtr (cLane n 0) 1 (s.fset (lfmP n) lfmFstate 0)
  else if st = 2 then
    if hit then s.fset (lfmP n) lfmMiss 0
    else
      let k := s.fget (lfmP n) lfmMiss + 1
      let s := addCtr (cLane n 0) 1 (s.fset (lfmP n) lfmMiss k)
      if k = 4 then
        let occ := s.nextOcc
        let s := frameLost n none s
        each (s.hostsOf n) (substOn 2 (some occ)) s
      else s
  else s

/-- Why a frame's payload does not reach the host, by the causes of HTXh_SUBST; none where it does (R46, R52, R61, R105, R154, R160, R161). -/
def withheld (s : State) (n : Lane) : Option Nat :=
  let l := s.lanes[n]
  let st := s.rd (ra (lfmP n) 0x048)
  if s.flag (lrxP n) lrxLos then some 1
  else if s.fget (lfmP n) lfmFstate ≠ 2 then some 2
  else if s.coding n = 0 ∧ (tb st 10 ∨ tb st 11) then some 3
  else if s.coding n = 0 ∧ tb st 14 ∧ tb (s.rd (ra (lfmP n) 0x040)) 11 then some 4
  else if l.realignRx then some 6
  else if !l.goodRx && !l.holdRx then some 2
  else none

/-- Host bits in block order, as the parts of the lane's host lanes (R51). -/
def partsOf (s : State) (n : Lane) (host : List Bool) : List (List Bool) :=
  if pairCount s n = 2 then let p := deinterleave ((host.length + 63) / 64) host; [p.1, p.2] else [host]

/-- A frame's bits go to the host: whole, substituted whole, or substituted from a late token on (R22), and the outer-code monitor sees those that the framer delivers (R102). `index` gives the block-order index of the first host bit that a line symbol carries. DESIGN CHOICE, log entry 76: delivery resumes at the frame boundary, the first host bit of the first frame delivered, as the codeword-aligned point of R36. -/
def deliverFrame (n : Lane) (index : Nat → Nat) (parts : List (List Bool)) (s : State) : State :=
  let total := parts.foldl (fun a l => a + l.length) 0
  let s' := s.setLane n (fun l => { l with lateRx := none, realignRx := false })
  match withheld s n with
  | some c => deliver n c 0 parts (monHunt n s')
  | none =>
    let s' := monRun n (blockOrder parts) s'
    match s.lanes[n].lateRx with
    | some t => deliver n 5 (min total (index (128 * t))) parts s'
    | none => deliver n 0 total parts s'

/-- A part of a frame period, `num` of `den`, of a lane without lock: as many bits of substitute (R61, R154). -/
def deliverNothing (n : Lane) (num den : Nat) (s : State) : State :=
  let k := max 1 (pairCount s n)
  deliverFrame n (fun _ => 0) (List.replicate k (List.replicate (65536 * num / den / (2 * k) * 2) false)) s

/-! Samples, and what is counted over them -/

/-- The ADC samples of a frame: corrected by the slices that fill their positions (R74, R210). DESIGN CHOICE, log entry 76: the first sample after a restart is taken at P0. -/
def rxAdc (s : State) (n : Lane) (samples : List Int) : List Int := correctFrom s n s.lanes[n].adcPos samples

/-- The samples as the FFE takes them: less the overlay estimate where cancellation is on and WMKn is locked (R80). -/
def rxCancel (s : State) (n : Lane) (x est : List Int) : List Int :=
  if tb (s.rd (ra (lrxP n) 0x040)) 8 && s.flag (wmkP n) ⟨0x04C, 0, 1⟩ then
    (x.zip (est ++ List.replicate (x.length - est.length) 0)).map (fun p => p.1 - p.2)
  else x

/-- Something holds back the gradient sets of a line receiver (R98). -/
def lrxGradHold (s : State) (n : Lane) : Bool :=
  !s.rxLive n || s.stopped (lfmP n) || s.flag (lrxP n) lrxLos || !s.flag (lrxP n) lrxCdr
    || !tb (s.rd (ra (lrxP n) 0x058)) 5 || s.flag (wmkP n) wmkFlareRx

/-- What the symbols of a line receiver add to its counts, the first of them at index `k`, each with whether a run of disagreement becomes a suspect event at it (R95, R99, R100). -/
def lrxFigures (c : RxCoef) (d n w : Nat) (hold : Bool) : Nat → List (RxSym × Bool) → FigSt → FigSt
  | _, [], f => f
  | k, (r, sus) :: rest, f =>
    let f := if hold then f.gradDrop else if k % d = 0 then gradStep n (lineAdds c r) f else f
    let e := lineErr c r
    lrxFigures c d n w hold (k + 1) rest (winStep w (e.natAbs * e.natAbs) (r.a != r.l) sus f)

/-- What a capture unit gets of a line receiver's symbols, `x` being their ADC samples and `y` their FFE outputs (R413, R414). How y's 1/256 unit rounds to the RAW sample's 1/64 is open: half up (log entry 34). -/
def lrxSamples (c : RxCoef) (x y : List Int) (syms : List RxSym) (kind : Nat) : List CapSample :=
  (x.zip (y.zip syms)).map (fun (a, b, r) =>
    { v := if kind = 0 then a else if kind = 1 then clampI (-32768) 32767 (roundHalfUp b 4)
        else if kind = 2 then clampI (-128) 127 (roundHalfUp (lineErr c r) 256) else (r.l : Int),
      differs := r.a != r.l })

/-- The counts of a line receiver after symbols of a frame, `x` being their ADC samples and `coded` whether the 64-state trellis has decided them: clip and signal-detect blocks, the gradient set, the quality window, and the counters of disagreements, suspect events and clipped samples (R75, R95, R99, R100, R104, R108). -/
def lrxCount (n : Lane) (c : RxCoef) (x : List Int) (before : Det) (f : Front) (d : List Nat) (coded : Bool) (s : State) : State :=
  let l := s.lanes[n]
  let k := d.length
  let syms := rxSyms before.tent before.last (f.win.take k) (f.z.take k) (f.tent.take k) d
  let e := s.rd (ra (lrxP n) 0x050)
  let g := s.rd (ra (lrxP n) 0x058)
  let (sus, run) := if coded then suspectAt (bits e 4 6) l.fig.run ((f.tent.take k).drop 48 |>.zip (recode (d.drop 48))) else ([], l.fig.run)
  let sus := if coded then List.replicate 48 false ++ sus else List.replicate k false
  let (low, high) := losTests s (lrxP n)
  let fig := losRun low high x (clipRun x { l.fig with run := run })
  let fig := lrxFigures c (gradD (bits g 0 2)) (2 ^ (8 + bits g 2 3)) (2 ^ (20 + bits e 0 4)) (lrxGradHold s n) l.adcPos (syms.zip sus) fig
  let dis := (syms.filter (fun r => r.a != r.l)).length
  let nsus := (sus.filter (fun b => b)).length
  let clipped := (x.filter (fun v => decide (v = -64 ∨ v = 63))).length
  let s := capFeed [0, 1, 2, 3] n.val (lrxSamples c x f.y syms) s
  addCtr (cLane n 0x12) clipped (addCtr (cLane n 0x11) nsus (addCtr (cLane n 0x10) dis (s.setLane n (fun l => { l with fig := fig }))))

/-- The receiver over `k` symbols that no frame lock places: the lead section and the tail DFE, and the main section of the mode in force, the 64-state trellis at the frame phase last known and the 4-state detector else; what it decides is counted and reaches no host (R84, R86, R88, R89). -/
def rxFree (n : Lane) (k : Nat) (samples est : List Int) (s : State) : List Nat × State :=
  let c := rxCoef s n
  let x := rxAdc s n samples
  let before := s.lanes[n].det
  let f := front c k before (rxCancel s n x est)
  let trellis := s.fget (lrxP n) lrxDec == 0
  let (d, det) := if trellis then mainSection 64 96 k (branches64 c (fun _ => none)) f else mainSection 4 16 k (fun _ => branches4 c) f
  (d, lrxCount n c (x.take k) before f d trellis (s.setLane n (fun l => { l with det := det })))

/-- The frame phase of the receiver moves on by `k` symbols (R74). -/
def rxMove (n : Lane) (k : Nat) (s : State) : State := s.setLane n (fun l => { l with adcPos := (l.adcPos + k) % 1024 })

/-- HUNT_COMMA_FOUND: a comma found in HUNT, `ahead` symbols after the last boundary, sets the frame phase and the boundaries; the framer goes to PRESYNC and the main section to the 64-state trellis with equal metrics (R60, R86, R88, R484). DESIGN CHOICE, log entry 76: the period cut short brings whole symbols of the substitute, rounded down. -/
def execHuntCommaFound (n : Lane) (ahead : Nat) (samples wmk : List Int) (s : State) : Host.Outcome State Fault Refusal :=
  nxt (if s.rxLive n && s.coding n == 0 && s.fget (lfmP n) lfmFstate == 0 && !s.flag (lrxP n) lrxLos then
    let s := (rxFree n ahead samples wmk s).2
    let s := hostExit n (65536 * ahead / 34816 / (2 * max 1 (pairCount s n)) * 2) (deliverNothing n ahead 34816 (rxMove n ahead s))
    ((s.fset (lfmP n) lfmFstate 1).fset (lrxP n) lrxDec 0).setLane n (fun l => { l with
      preCnt := 1, found := true, rxFirst := true, det := { l.det with mainM := [], mainS := [] } })
  else s)

/-- A PROT frame at its expected position: comma, decisions of the trellis with the header's filler constraint, header and payload (R46, R55, R60, R61, R86 to R88). -/
def protRx (n : Lane) (samples est : List Int) (s : State) : State :=
  let c := rxCoef s n
  let x := rxAdc s n samples
  let before := s.lanes[n].det
  let f := front c 34816 before (rxCancel s n x est)
  let slices := (f.y.take 32).map (fun y => (Config.commaSlice c.lvl y).val)
  let hit := commaFound (s.fget (lfmP n) ⟨0x044, 0, 3⟩) slices
  let (d0, _) := mainSection 64 96 34816 (branches64 c (fun _ => none)) f
  let w := ofMsb (toBits ((d0.drop 32).take 16))
  let s := takeHeader n w (commaStep n hit s)
  let sync := s.fget (lfmP n) lfmFstate == 2
  let jc := JC.ofCode (jcMajority w)
  let none_ := tb (s.rd (ra (lfmP n) 0x048)) 10 || tb (s.rd (ra (lfmP n) 0x048)) 11
  let known (i : Nat) : Option Bool := if i < infoIndex 144 then none else fillKnown jc none_ i
  let (d, det) := mainSection 64 96 34816 (branches64 c known) f
  let s := lrxCount n c (x.take 34816) before f d true (s.setLane n (fun l => { l with det := det }))
  if sync then deliverFrame n infoIndex (partsOf s n (hostOfInfo jc (dropParity false 0 (toBits (d.drop 48))))) s
  else deliverNothing n 1 1 s

/-- The host symbols of a BARE timing frame by host lane; PAIR_SWAP exchanges the two (R64, R65). -/
def bareParts (s : State) (n : Lane) (d : List Nat) : List (List Bool) :=
  if pairCount s n = 2 then
    let ix := List.range d.length
    let ev := toBits (((d.zip ix).filter (fun p => p.2 % 2 == 0)).map (fun p => p.1))
    let od := toBits (((d.zip ix).filter (fun p => p.2 % 2 == 1)).map (fun p => p.1))
    if s.flag (lfmP n) ⟨0x048, 15, 1⟩ then [od, ev] else [ev, od]
  else [toBits d]

/-- A BARE timing frame: the decisions of the 4-state main section are the host symbols (R64, R89). -/
def bareRx (n : Lane) (samples est : List Int) (s : State) : State :=
  let (d, s) := rxFree n 32768 samples est s
  deliverFrame n (fun t => 2 * t) (bareParts s n d) s

/-- An STD200 timing frame: the 4-state detector's reliabilities go to the decoder of IEEE 802.3dj, whose alignment FSTATE shows; data follow from the first boundary after SYNC (R66, R67, R83, R90). -/
def stdRx (n : Lane) (k : Nat) (samples est : List Int) (s : State) : State :=
  let c := rxCoef s n
  let soft := softOut c ((front c k s.lanes[n].det (rxCancel s n (rxAdc s n samples) est)).z.take k) (mainPaths 4 s.lanes[n].det)
  let s := (rxFree n k samples est s).2
  let st := s.lanes[n].stdRx
  let st' := Config.stdDecState st soft
  let host := (List.range 65536).map (Config.stdDecBit st soft)
  let s := deliverFrame n (fun t => 65536 * t / k) [host] (s.setLane n (fun l => { l with stdRx := st' }))
  match (Config.stdAlign st').val with
  | 2 => frameLock n s
  | 1 => if s.fget (lfmP n) lfmFstate = 2 then s else s.fset (lfmP n) lfmFstate 1
  | _ =>
    let occ := s.nextOcc
    if s.fget (lfmP n) lfmFstate = 2 then each (s.hostsOf n) (substOn 2 (some occ)) (frameLost n none s) else s.fset (lfmP n) lfmFstate 0

/-- RX_FRAME: one received frame or timing frame, or the period of one where no lock is held; the receiver works in every frame state, and the expected MFC moves on with every period (R40, R46, R63, R84, R88, R105, R153, R484). -/
def rxFrameOp (n : Lane) (samples est : List Int) (released : Nat) (s : State) : State :=
  let s := elasticRecentre n s
  let k := frameSymbols (s.coding n) s.lanes[n].rxNo
  let st := s.fget (lfmP n) lfmFstate
  let still := s.stopped (lrxP n) || s.stopped (lfmP n) || s.bad (lrxP n) || s.bad (lfmP n) || s.cal[n].fg
  let framed := s.rxLive n && !still && !s.flag (lrxP n) lrxLos && s.coding n == 0 && (st == 1 || st == 2)
  let s := onlyIf (!framed) (fun s => s.setLane n (fun l => { l with rxMfc := l.rxMfc.map (fun m => (m + 1) % 256) })) s
  let go :=
    if still then deliverParked n released (if s.rxLive n then (rxFree n k samples est s).2 else s)
    else hostExit n (hostPeriodBits s n released)
      (if !s.rxLive n then deliverNothing n 1 1 s
      else if framed then protRx n samples est s
      else if s.flag (lrxP n) lrxLos || s.coding n == 0 then deliverNothing n 1 1 (rxFree n k samples est s).2
      else if s.coding n = 1 then bareRx n samples est s
      else stdRx n k samples est s)
  rxMove n k (go.setLane n (fun l => { l with rxNo := l.rxNo + 1 }))

/-- RX_FRAME (R46). -/
def execRxFrame (n : Lane) (samples wmk : List Int) (released : Nat) (s : State) : Host.Outcome State Fault Refusal :=
  nxt (if s.lanes[n].run && mapEn (s.mapOf n) then rxFrameOp n samples wmk released s else s)

/-! Clip blocks, gradients, quality -/

/-- CLIP_BLOCK_END: a block of 32,768 samples has ended, and its clipped samples are compared with the threshold (R75). -/
def execClipBlockEnd (n : Lane) (s : State) : Host.Outcome State Fault Refusal :=
  match s.lanes[n].fig.clipDone with
  | [] => nxt s
  | clipped :: rest =>
    let above := decide (s.fget (lrxP n) ⟨0x04C, 16, 16⟩ < clipped)
    let was := s.lanes[n].clipPrev
    let s := (s.setFlag (lrxP n) ⟨0x05C, 3, 1⟩ above).setLane n (fun l => { l with clipPrev := above, fig := { l.fig with clipDone := rest } })
    nxt (if above && !was then raise (evLane n 16) 0 s else s)

/-- OVERRUN of a GRAD_STAT register counts a set published unread (R96). -/
def gradOverrun (page off : Nat) (unread : Bool) (s : State) : State := if unread then s.fsat page ⟨off, 18, 8⟩ 1 else s

/-- GRADIENT_PUBLISH: a set of N participating symbols is complete; it is published and its trigger fires, where nothing of R98 holds (R95, R96). -/
def execGradientPublish (n : Lane) (s : State) : Host.Outcome State Fault Refusal :=
  match s.lanes[n].fig.gradDone with
  | [] => nxt s
  | (sums, sat) :: rest =>
    nxt (if lrxGradHold s n then gradDrop n s
    else
      let s := gradOverrun (lrxP n) 0x068 s.lanes[n].gradNew s
      fire 3 n (s.setLane n (fun l => { l with
        gradPub := sums, gradSat := sat, gradSeq := (l.gradSeq + 1) % 65536, gradNew := true, fig := { l.fig with gradDone := rest } })))

/-- A read of a lane's or host lane's GRAD_STAT: the view is fixed on the last publication, and READY is reported once (R97, R138). -/
def gradView (statOff gradOff k page : Nat) (pub : List Int) (seq : Nat) (sat new : Bool) (s : State) : State :=
  let o := s.fget page ⟨statOff, 18, 8⟩
  let s := s.wr (ra page statOff) (seq % 65536 + bit new * 2 ^ 16 + bit sat * 2 ^ 17 + o * 2 ^ 18)
  each (List.range k) (fun g s => s.wr (ra page (gradOff + 4 * g)) (enc2 24 (nth 0 pub g))) s

/-- A read of GRAD_STAT of a page LRXn or HRXh (R97, R138). -/
def gradStatRead (page : Nat) (s : State) : State :=
  if 0x020 ≤ page ∧ page < 0x028 then
    let n : Lane := Fin.ofNat 8 (page - 0x020)
    let l := s.lanes[n]
    (gradView 0x068 0x134 51 page l.gradPub l.gradSeq l.gradSat l.gradNew s).setLane n (fun l => { l with gradNew := false })
  else if 0x040 ≤ page ∧ page < 0x050 then
    let h : Host16 := Fin.ofNat 16 (page - 0x040)
    let x := s.hosts[h]
    (gradView 0x060 0x0DC 29 page x.gradPub x.gradSeq x.gradSat x.gradNew s).setHost h (fun x => { x with gradNew := false })
  else s

/-- GRAD_STAT_READ (R97). -/
def execGradStatRead (page : BitVec 12) (s : State) : Host.Outcome State Fault Refusal := nxt (gradStatRead page.toNat s)

/-- A flag takes the value of its condition, raising its event as it rises (R101, R139). -/
def alarm (page : Nat) (f : Fld) (now : Bool) (ev detail : Nat) (s : State) : State :=
  let was := s.flag page f
  let s := s.setFlag page f now
  if now && !was then raise ev (min 127 detail) s else s

/-- QUALITY_WINDOW_END: EQF, SER_PRE and BER_POST of a window that has ended are published and compared with their thresholds, and its uncorrectable codewords with theirs (R99 to R101, R103). -/
def execQualityWindowEnd (n : Lane) (s : State) : Host.Outcome State Fault Refusal :=
  match s.lanes[n].fig.winDone with
  | [] => nxt s
  | q :: rest =>
    let e := s.rd (ra (lrxP n) 0x050)
    let los := s.flag (lrxP n) lrxLos
    let eq := if los then 0 else eqf (rxCoef s n).lvl q.sumSq q.w
    let ser := if los then 0 else decades q.disagree q.w
    let ber := if los || s.coding n != 0 then 0 else decades (q.suspects * bits e 10 4) (2 * q.w)
    let s := s.setLane n (fun l => { l with fig := { l.fig with winDone := rest } })
    let s := (s.fset (lrxP n) ⟨0x060, 0, 16⟩ eq).fadd (lrxP n) ⟨0x060, 16, 16⟩ 1
    let s := s.wr (ra (lrxP n) 0x064) (ser + ber * 65536)
    let a := s.rd (ra (lrxP n) 0x054)
    let s := alarm (lrxP n) ⟨0x05C, 8, 1⟩ (decide (eq ≠ 0 ∧ eq < a % 65536)) (evLane n 12) (eq / 50) s
    let s := alarm (lrxP n) ⟨0x05C, 9, 1⟩ (decide (ser ≠ 0 ∧ ser ≤ 10 * bits a 16 8)) (evLane n 13) (ser / 10) s
    let s := alarm (lrxP n) ⟨0x05C, 10, 1⟩ (decide (ber ≠ 0 ∧ ber ≤ 10 * bits a 24 8)) (evLane n 14) (ber / 10) s
    nxt (if bits e 16 8 < q.uncorr then raise (evLane n 15) (min 127 q.uncorr) s else s)

end Sys2Proof.Machine
end

