-- ==== Sys2Proof/Machine/HostLane.lean ====
section
/-! DEFINITION. Host lanes: signal detect, clock recovery, the host quality figure, gradient sets, the pattern checker and the transmit PLL (R136 to R141, R154, R160, R486). -/

namespace Sys2Proof.Machine

/-- The accumulating gradient set of a host receiver is discarded (R98, R138). -/
def hrxGradDrop (h : Host16) (s : State) : State := s.setHost h (fun x => { x with fig := x.fig.gradDrop })

/-- The transmit clock of the line lane whose lane A a host lane is follows its receiver (R157, R160). -/
def hostHold (h : Host16) (after : Option Nat) (s : State) : State :=
  match s.laneOf h with
  | some n => if mapA (s.mapOf n) = h then holdCheck n after s else s
  | none => s

/-- LOS of a host receiver sets, with event 0 and a quality figure of 0 (R139, R140, R156, R160). -/
def hrxLosOp (h : Host16) (s : State) : State :=
  if s.flag (hrxP h) hrxLos then s
  else
    let occ := s.nextOcc
    hostHold h (some occ) (raise (evHost h 0) 0 (hrxGradDrop h ((s.setFlag (hrxP h) hrxLos true).fset (hrxP h) ⟨0x058, 0, 16⟩ 0)))

/-- CDR_LOCK of a host receiver clears, with event 1 (R140, R156, R160). -/
def hrxLolOp (h : Host16) (s : State) : State :=
  if s.flag (hrxP h) hrxCdr then
    let occ := s.nextOcc
    hostHold h (some occ) (raise (evHost h 1) 0 (hrxGradDrop h (s.setFlag (hrxP h) hrxCdr false)))
  else s

/-- HRX_LOS_ASSERT: 64 consecutive blocks have stayed below the assert level (R104, R140). -/
def execHrxLosAssert (h : Host16) (s : State) : Host.Outcome State Fault Refusal :=
  nxt (if s.hrxLive h && decide (64 ≤ s.hosts[h].fig.below) then hrxLosOp h s else s)

/-- HRX_LOS_DEASSERT: 1,024 consecutive blocks have stayed above the deassert level (R104, R140). -/
def execHrxLosDeassert (h : Host16) (s : State) : Host.Outcome State Fault Refusal :=
  nxt (if s.hrxLive h && decide (1024 ≤ s.hosts[h].fig.above) then s.setFlag (hrxP h) hrxLos false else s)

/-- HRX_CDR_LOCK; a host CDR cannot acquire without REFCLK_HOST (R140, R159). -/
def execHrxCdrLock (h : Host16) (s : State) : Host.Outcome State Fault Refusal :=
  nxt (if s.hrxLive h && s.flag 0x007 clkRefh then s.setFlag (hrxP h) hrxCdr true else s)

/-- HRX_CDR_LOL (R140, R160). -/
def execHrxCdrLol (h : Host16) (s : State) : Host.Outcome State Fault Refusal := nxt (hrxLolOp h s)

/-- HQF_WINDOW_END: the figure of a window that has ended (R139). -/
def execHqfWindowEnd (h : Host16) (s : State) : Host.Outcome State Fault Refusal :=
  match s.hosts[h].fig.winDone with
  | [] => nxt s
  | w :: rest =>
    let c := s.rd (ra (hrxP h) 0x050)
    let q := if s.flag (hrxP h) hrxLos then 0 else eqf (hrxCoef s h).lvl w.sumSq w.w
    let s := s.setHost h (fun x => { x with fig := { x.fig with winDone := rest } })
    let s := (s.fset (hrxP h) ⟨0x058, 0, 16⟩ q).fadd (hrxP h) ⟨0x058, 16, 16⟩ 1
    nxt (alarm (hrxP h) ⟨0x054, 3, 1⟩ (decide (q ≠ 0 ∧ q < c / 65536)) (evHost h 2) (q / 50) s)

/-- HRX_GRADIENT_PUBLISH: a set of N participating symbols is complete (R95, R96, R98, R138). -/
def execHrxGradientPublish (h : Host16) (s : State) : Host.Outcome State Fault Refusal :=
  match s.hosts[h].fig.gradDone with
  | [] => nxt s
  | (sums, sat) :: rest =>
    nxt (if hrxGradHold s h then hrxGradDrop h s
    else
      let s := gradOverrun (hrxP h) 0x060 s.hosts[h].gradNew s
      fire 4 h (s.setHost h (fun x => { x with
        gradPub := sums, gradSat := sat, gradSeq := (x.gradSeq + 1) % 65536, gradNew := true, fig := { x.fig with gradDone := rest } })))

/-- PRBS_CHECKER_LOCK: CHK_LOCK shows whether the checker follows its pattern: it locks after 64 symbols without error, and 64 errors in a block of 1,024 symbols make it seek anew (R141). -/
def execPrbsCheckerLock (h : Host16) (s : State) : Host.Outcome State Fault Refusal :=
  nxt (if s.hrxLive h && tb (s.rd (ra (hrxP h) 0x040)) 7 then s.setFlag (hrxP h) hrxChk s.hosts[h].chkPos.isSome else s)

/-- HTX_PLL_LOCK (R486). -/
def execHtxPllLock (h : Host16) (s : State) : Host.Outcome State Fault Refusal :=
  nxt (if (s.laneOf h).isSome && s.pwr.hostOn.getLsbD (h.val / 4) then s.setFlag (htxP h) htxPll true else s)

/-- HTX_PLL_LOL: a fall of PLL_LOCK that is a fault of the PLL raises event 5 (R486). -/
def execHtxPllLol (h : Host16) (s : State) : Host.Outcome State Fault Refusal :=
  nxt (if s.flag (htxP h) htxPll then raise (evHost h 5) 0 (s.setFlag (htxP h) htxPll false) else s)

end Sys2Proof.Machine
end

