-- ==== Sys2Proof/Machine/Pace.lean ====
section
/-! DEFINITION. Pace as the rules of presses and power use it: demand, capability, the margin floor, and the checks of a lowered VCORE and of a demand rise (R333 to R341). -/

namespace Sys2Proof.Machine

/-- Page PWR. -/
def pwrP : Nat := 0x001
/-- VCORE_REQ.CODE, the target in force (R346; log entry 17). -/
def vcoreReq : Fld := ⟨0x060, 0, 6⟩
/-- VCORE_STAT.SENT. -/
def vcoreSent : Fld := ⟨0x064, 0, 6⟩
/-- VCORE_STAT.SLEWING. -/
def vcoreSlew : Fld := ⟨0x064, 6, 1⟩
/-- VCORE_STAT.CONFIRMED. -/
def vcoreConf : Fld := ⟨0x064, 7, 1⟩
/-- VCORE_STAT.HW_RAISE. -/
def vcoreRaise : Fld := ⟨0x064, 8, 1⟩
/-- VCORE_STAT.AVS_ERR. -/
def vcoreErr : Fld := ⟨0x064, 9, 1⟩
/-- PACE_FLOOR, the floor in force in 0.1 %. -/
def paceFloor : Fld := ⟨0x06C, 0, 8⟩

/-- Whether a line lane runs: it has been started and is in neither dusk nor Waking (R321, R374). -/
def State.running (s : State) (n : Lane) : Bool := s.lanes[n].run && !s.dusky n

/-- The line symbol rate of a lane, which is 512 times its demand D (R333). -/
def laneRate (s : State) (n : Lane) : Nat := symRateHz (s.coding n) (s.rate n)

/-- C_CONF in tokens per second: the lowest of the replica's and of every running lane's last completed window (R335). -/
def cConf (s : State) : Nat :=
  ((List.finRange 8).filter (fun n => s.running n)).foldl (fun (a : Nat) (n : Lane) => min a (kget 0 s.pwr.cLane n)) s.pwr.cRep

/-- Whether a capability of num / den tokens per second leaves a lane of a symbol rate the margin floor: (C − D) / D ≥ floor (R334, R336). -/
def marginOk (s : State) (num den : Int) (rate : Nat) : Bool :=
  decide ((rate : Int) * (1000 + (s.fget pwrP paceFloor : Int)) * den ≤ num * 512 * 1000)

/-- cap(V) × 10 at a VCORE code, interpolated between the points of R339. -/
def cap10 (code : Nat) : Nat :=
  let p : Nat → Nat := fun i => nth 620 [360, 430, 500, 560, 620] i
  let i := code / 10
  10 * p i + (p (i + 1) - p i) * (code % 10)

/-- Whether VCORE may be lowered to a code (R339). -/
def lowerOk (s : State) (code : Nat) : Bool :=
  s.flag pwrP vcoreConf && (List.finRange 8).all (fun n =>
    !s.running n || marginOk s ((cConf s : Int) * cap10 code) (cap10 (s.fget pwrP vcoreReq)) (laneRate s n))

/-- Whether a change starts a lane or raises its demand, `r` being the symbol rate it would run at (R340). -/
def laneRises (s : State) (n : Lane) (r : Option Nat) : Bool :=
  match r with
  | some r => !s.running n || decide (laneRate s n < r)
  | none => false

/-- Whether a change starts a lane or raises a lane's demand (R340). -/
def demandRise (s : State) (after : Lane → Option Nat) : Bool :=
  (List.finRange 8).any (fun n => laneRises s n (after n))

/-- The first lane that a demand rise leaves below its floor, `after` giving the symbol rate of each lane that would run; all fail where CONFIRMED = 0 (R340). DEDUCED: the lanes whose demand rises are looked at before the others, as the examples of chapters 13 and 15 have it (log entry 49). -/
def demandFail (s : State) (after : Lane → Option Nat) : Option Lane :=
  let now := ((List.finRange 8).filter (fun n => s.running n)).foldl (fun (a : Nat) (n : Lane) => a + laneRate s n) 0
  let new := (List.finRange 8).foldl (fun (a : Nat) (n : Lane) => a + (after n).getD 0) 0
  let droop : Nat := s.fget pwrP ⟨0x068, 8, 8⟩
  let pred : Int := (cConf s : Int) * (640000000000000 - (droop : Int) * ((new : Int) - (now : Int)))
  let fails (n : Lane) : Bool := match after n with
    | some r => !(s.flag pwrP vcoreConf && marginOk s pred 640000000000000 r)
    | none => false
  (List.finRange 8).find? (fun n => fails n && laneRises s n (after n)) <|> (List.finRange 8).find? fails

/-- The VCORE target takes a code: the move starts and CONFIRMED clears (R338, R341, R343). -/
def targetSet (code : Nat) (s : State) : State :=
  let s := (s.fset pwrP vcoreReq code).setFlag pwrP vcoreConf false
  s.setFlag pwrP vcoreSlew (s.fget pwrP vcoreSent != code)

/-- One step of the hardware raise: the target rises by one code once the last write is done; at 0.80 V event 38 is raised once per episode (R337). -/
def hwRaise (s : State) : State :=
  let t := s.fget pwrP vcoreReq
  let s := s.setFlag pwrP vcoreRaise true
  if t < 40 then (if s.flag pwrP vcoreSlew then s else targetSet (t + 1) s)
  else if s.pwr.limited then s
  else raise 38 0 { s with pwr := { s.pwr with limited := true } }

/-- The lanes that would run after one more lane starts, with their symbol rates (R340). -/
def withLane (s : State) (n : Lane) (j : Lane) : Option Nat := if j = n ∨ s.running j then some (laneRate s j) else none

/-- VCORE is raised for a lane that waits in Waking: a raise of its own where none is under way (R325, R337). -/
def wakeRaise (s : State) : State :=
  hwRaise (if s.flag pwrP vcoreRaise then s else { s with pwr := { s.pwr with limited := false } })

/-- The demand check of a lane that is to start: a failure raises event 36 with the lane that fails, and VCORE is raised (R325, R340). -/
def demandCheck (n : Lane) (s : State) : Bool × State :=
  match demandFail s (withLane s n) with
  | none => (true, s)
  | some j => (false, wakeRaise (raise 36 j s))

/-- A line lane in Waking whose demand the confirmed capability does not allow yet (R325). -/
def wakeShort (s : State) (n : Lane) : Bool := s.flag 0x001 (pwrWaking n) && (demandFail s (withLane s n)).isSome

end Sys2Proof.Machine
end

