-- ==== Sys2Proof/Machine/LaneCtl.lean ====
section
/-! DEFINITION. The control of lanes: epochs and ramps, the restart of a line lane, park and unpark, and the abort of an in-service lane test (R73, R91 to R94, R117, R122 to R125, R148 to R150, R225, R374, R378). -/

namespace Sys2Proof.Machine

/-! Epoch-class registers -/

/-- The epoch-class registers of a page with the bits of that class (R10, R92). -/
def pageRwe (page : Nat) : List (Nat × Nat) :=
  match pageOf page with
  | none => []
  | some (k, _) => ((rowsOf k).filter (fun r => r.rwe != 0)).flatMap (fun r =>
      (List.range r.count).map (fun i => (ra page (r.off + r.stride * i), r.rwe)))

/-- The epoch-class registers that belong to a line lane in one direction: LRXn and the HTX pages of its host lanes at receive boundaries; LTXn, WMKn, COMP_BAND of LBn and the HRX pages at transmit boundaries (R150, R378). -/
def laneRwe (s : State) (n : Lane) (rx : Bool) : List (Nat × Nat) :=
  if rx then pageRwe (lrxP n) ++ (s.hostsOf n).flatMap (fun (h : Host16) => pageRwe (htxP h))
  else pageRwe (ltxP n) ++ pageRwe (wmkP n) ++ [(ra lasP (0x040 + 4 * n), 0x70)] ++ (s.hostsOf n).flatMap (fun (h : Host16) => pageRwe (hrxP h))

/-- The bits of an epoch-class register that FREEZE holds back (R94, R123, R155): NL_BAND is exempt. -/
def frozenBits (s : State) (a mask : Nat) : Nat :=
  let p := a / 1024
  if 0x020 ≤ p ∧ p < 0x028 then (if tb (s.rd (ra p 0x048)) 5 then mask else 0)
  else if 0x028 ≤ p ∧ p < 0x030 then (if tb (s.rd (ra p 0x050)) 0 then (if a % 1024 = 0x04C then mask &&& 1 else mask) else 0)
  else if 0x040 ≤ p ∧ p < 0x050 then (if tb (s.rd (ra p 0x048)) 4 then mask else 0)
  else if 0x050 ≤ p ∧ p < 0x060 then (if tb (s.rd (ra p 0x048)) 1 then mask else 0)
  else 0

/-- Whether a register's controls ramp one code per frame boundary: FE_CTRL of the receivers and AMP of the transmitters (R73, R117, R135, R143). -/
def ramped (a : Nat) : Bool :=
  let p := a / 1024
  let o := a % 1024
  (((0x020 ≤ p && p < 0x028) || (0x040 ≤ p && p < 0x050) || (0x050 ≤ p && p < 0x060)) && o == 0x044) || (0x028 ≤ p && p < 0x030 && o == 0x048)

/-- The value a ramp moves to; AMP of a line transmitter goes no further than the top code of its mode (R116, R117). DESIGN CHOICE, log entry 77: in OFF and while the mode is switched the top code is 60. -/
def rampTo (s : State) (a : Nat) : Nat :=
  let t := (kget (resetWord a) s.target a).toNat
  let p := a / 1024
  if 0x028 ≤ p ∧ p < 0x030 then min t (if s.fget p ltxOut = 2 then 48 else 60) else t

/-- One code toward a target. -/
def oneStep (cur tgt : Int) : Int := if cur < tgt then cur + 1 else if tgt < cur then cur - 1 else cur

/-- A ramped register's word moved one code in each of its fields (R73). -/
def rampWord (a cur tgt : Nat) : Nat :=
  let p := a / 1024
  if a % 1024 = 0x044 ∧ p < 0x050 then
    let f (lsb w : Nat) : Nat := (oneStep (bits cur lsb w : Nat) (bits tgt lsb w : Nat)).toNat * 2 ^ lsb
    let ph := enc2 6 (oneStep (sx 6 (bits cur 16 6)) (sx 6 (bits tgt 16 6)))
    f 0 5 + f 8 6 + (if p < 0x028 then ph * 2 ^ 16 else 0)
  else (oneStep (cur : Int) (tgt : Int)).toNat

/-- The bit that shows a page's ramp (R73, R117, R155). -/
def rampBit (p : Nat) : Fld :=
  if p < 0x028 then lrxRamp else if p < 0x030 then ⟨0x080, 0, 1⟩ else if p < 0x050 then ⟨0x054, 2, 1⟩ else ⟨0x04C, 0, 1⟩

/-- A ramped register takes one step, and its page shows whether the ramp goes on. -/
def rampStep (a : Nat) (s : State) : State :=
  let tgt := rampTo s a
  let cur := rampWord a (s.inForce a) tgt
  (s.setForce a cur).setFlag (a / 1024) (rampBit (a / 1024)) (cur != tgt)

/-- A register takes force at once, with its ramp at its end; AMP of a line transmitter, which never moves by more than one code per frame boundary, has its value for target and ramps from the boundary after (R91, R117). DESIGN CHOICE, log entry 77. -/
def forceNow (a mask : Nat) (s : State) : State :=
  let v := (s.inForce a &&& (0xFFFFFFFF ^^^ mask)) ||| (s.rd a &&& mask)
  let s := { s with target := kput (resetWord a) s.target a (BitVec.ofNat 32 v), held := kput none s.held a none }
  if !ramped a then s.setForce a v
  else if 0x028 ≤ a / 1024 ∧ a / 1024 < 0x030 then s.setFlag (a / 1024) (rampBit (a / 1024)) (s.inForce a != rampTo s a)
  else (s.setForce a (rampTo s a)).setFlag (a / 1024) (rampBit (a / 1024)) false

/-- A strobe captures the value that an epoch-class register holds; a later strobe before the boundary captures again (R92, R378). -/
def capture (a : Nat) (s : State) : State :=
  { s with held := kput none s.held a (some (kget (resetWord a) s.regs a)) }

/-- An epoch strobe for the lanes of a mask (R378). -/
def epochStrobe (mask : Nat) (s : State) : State :=
  each ((List.finRange 8).filter (fun (n : Lane) => tb mask n)) (fun n s =>
    let s := each (laneRwe s n true ++ laneRwe s n false) (fun x s => capture x.1 s) s
    s.setLane n (fun l => { l with epochTx := true, epochRx := true })) s

/-- EPOCH (R378). -/
def execEpoch (mask : Byte) (s : State) : Host.Outcome State Fault Refusal := nxt (epochStrobe mask.toNat s)

/-- A captured value takes force, but for what FREEZE holds back; a ramped one sets the ramp's target and takes its first step (R73, R92, R94, R123). -/
def applyHeld (x : Nat × Nat) (s : State) : State :=
  let (a, mask) := x
  match kget none s.held a with
  | none => s
  | some v =>
    let m := mask &&& (0xFFFFFFFF ^^^ frozenBits s a mask)
    let s := { s with held := kput none s.held a none }
    if ramped a then
      if m = 0 then s
      else rampStep a { s with target := kput (resetWord a) s.target a (BitVec.ofNat 32 (v.toNat &&& mask)) }
    else s.setForce a ((s.inForce a &&& (0xFFFFFFFF ^^^ m)) ||| (v.toNat &&& m))

/-- WMK_STAT fields (R295). -/
def wmkLockF : Fld := ⟨0x04C, 0, 1⟩
/-- WMK_STAT, frame in reception. -/
def wmkInRx : Fld := ⟨0x04C, 1, 1⟩
/-- WMK_STAT, frame in transmission. -/
def wmkInTx : Fld := ⟨0x04C, 2, 1⟩
/-- WMK_STAT.HOLD. -/
def wmkHold : Fld := ⟨0x04C, 4, 1⟩
/-- WMK_STAT, TX_EN in force. -/
def wmkTxShown : Fld := ⟨0x04C, 5, 1⟩
/-- TX_CTRL.BUSY. -/
def wmkBusy : Fld := ⟨0x054, 1, 1⟩

/-- A flare that waits for the frame in progress begins once none is sent and the laser is ON: B_n is frozen (R28, R289). -/
def flareGo (n : Lane) (s : State) : State :=
  if s.wmk[n].flareWait && s.wmk[n].sending.isNone && s.fget lasP (lbState n) == 1 then
    let b := lbValue s n
    let t := s.cycles
    s.setWmk n (fun w => { w with flareWait := false, flareOn := true, frozen := b, flareAt := t })
  else s

/-- A watermark frame in transmission is cut; a host frame is busy no more (R276, R328; log entry 18). -/
def wmkCut (n : Lane) (s : State) : State :=
  let host := match s.wmk[n].sending with | some f => f.cls == 1 | none => false
  let s := s.setWmk n (fun w => { w with sending := none, syms := [], lastSyms := [] })
  let s := s.setFlag (wmkP n) wmkInTx false
  flareGo n (onlyIf host (fun s => s.setFlag (wmkP n) wmkBusy false) s)

/-- WMK_STAT shows TX_EN in force; clearing it ends the overlay and cuts a frame (R276). -/
def wmkTxShow (n : Lane) (s : State) : State :=
  let on := s.ffget (wmkP n) wmkTxEn == 1
  let s := s.setFlag (wmkP n) wmkTxShown on
  if on then s else wmkCut n s

/-- The demodulator of a lane stops: LOCK and a frame in reception end, and the peak reads 0 (R280, R295). -/
def wmkRxOff (n : Lane) (s : State) : State :=
  let s := s.setWmk n (fun w => { w with rx := {} })
  ((s.setFlag (wmkP n) wmkLockF false).setFlag (wmkP n) wmkInRx false).fset (wmkP n) ⟨0x04C, 16, 12⟩ 0

/-- The demodulator of a lane stops where its receiver has become UNUSABLE (R280). -/
def wmkRxBad (n : Lane) (s : State) : State := onlyIf (s.bad (lrxP n)) (wmkRxOff n) s

/-- The directions whose boundary a boundary of a line lane is: until the receiver has taken a first one of its own, the transmit boundaries are those of both (R484). -/
def boundaryOf (s : State) (n : Lane) (rx : Bool) : List Bool :=
  if s.lanes[n].rxFirst then [rx] else if rx then [] else [false, true]

/-- At a line lane's first boundary after a strobe, in one direction, everything captured takes force together, and at a transmit boundary every dirty nonlinear set swaps (R92, R122 to R125, R150). -/
def epochDir (n : Lane) (rx : Bool) (s : State) : State :=
  let l := s.lanes[n]
  if !s.running n || !(if rx then l.epochRx else l.epochTx) then s
  else
    let s := s.setLane n (fun l => if rx then { l with epochRx := false } else { l with epochTx := false })
    let s := each (laneRwe s n rx) applyHeld s
    if rx then s
    else
      let s := if tb (s.rd (ra (ltxP n) 0x050)) 0 then s else nlSwap n s
      clampCheck n (wmkTxShow n s)

/-- EPOCH_APPLY (R92, R484). -/
def execEpochApply (n : Lane) (rx : Bool) (s : State) : Host.Outcome State Fault Refusal := nxt (each (boundaryOf s n rx) (epochDir n) s)

/-- Every ramp of a direction moves one code (R73, R117). -/
def rampDir (n : Lane) (rx : Bool) (s : State) : State := each ((laneRwe s n rx).filter (fun x => ramped x.1)) (fun x s => rampStep x.1 s) s

/-- RAMP_STEP: at a later boundary every ramp of the direction moves one code (R73, R117, R484). -/
def execRampStep (n : Lane) (rx : Bool) (s : State) : Host.Outcome State Fault Refusal :=
  nxt (if s.running n then each (boundaryOf s n rx) (rampDir n) s else s)

/-! In-service tests and foreground calibration as lanes meet them -/

/-- IST_STAT.BUSY and RESULT (R226). -/
def istBusy : Fld := ⟨0x158, 0, 1⟩
/-- IST_STAT.RESULT. -/
def istResult : Fld := ⟨0x158, 1, 3⟩

/-- Whether an address holds a register of LRXn or LTXn that a write stores (R224). -/
def istReg (n : Lane) (a : Nat) : Bool :=
  (a / 1024 == lrxP n || a / 1024 == ltxP n) &&
    (match pageOf (a / 1024) with
    | some (k, _) =>
      match rowAt k (liveOff (a % 1024)).1 with
      | some (r, _) => (r.rw ||| r.rwe ||| r.rws) != 0 && decide (0x40 ≤ a % 1024)
      | none => false
    | none => false)

/-- What a lane test saves: corrections, slice map and register values (R224). -/
def istSaveLane (n : Lane) (s : State) : State :=
  { s with ist := { s.ist with
    kind := 1, unit := n.val, corr := s.cal[n].corr, out := s.cal[n].out, slices := s.lanes[n].slices, regs := s.regs.filter (fun e => istReg n e.1) } }

/-- The slice map with a retired slice out, its position filled by the slice that was out (R77, R219, R224). -/
def mapWithout (slices : List Nat) (out : Nat) : Option Nat → List Nat × Nat
  | some r => if r = out then (slices, out) else (slices.map (fun x => if x = r then out else x), r)
  | none => (slices, out)

/-- What a lane test saved is restored; a slice that it retired stays out (R223, R224). -/
def istRestoreLane (n : Lane) (s : State) : State :=
  let i := s.ist
  let s := { s with regs := s.regs.filter (fun e => !istReg n e.1) }
  let s := each i.regs (fun e s => { s with regs := kput (resetWord e.1) s.regs e.1 e.2 }) s
  let (slices, out) := mapWithout i.slices i.out s.cal[n].retired
  let s := (s.setCal n (fun c => { c with corr := i.corr, out := out })).setLane n (fun l => { l with slices := slices, outHold := false })
  s.fset (lrxP n) adcOut out

/-- An in-service test ends with a result: event 26 (R224). -/
def istEnd (result : Nat) (s : State) : State :=
  let s := { s with ist := { redirected := s.ist.redirected } }
  raise 26 result ((s.setFlag bistP istBusy false).fset bistP istResult result)

/-- A lane test of a line lane is aborted by a press or a park of its pages (R225). -/
def istAbort (n : Lane) (s : State) : State :=
  if s.ist.kind = 1 ∧ s.ist.unit = n.val then istEnd 4 (istRestoreLane n s) else s

/-- Foreground calibration begins: LOS reads 1 and CDR_LOCK 0 without events of their own, a clock that followed the line goes into holdover, and the lane delivers nothing (R160, R219). -/
def fgBegin (n : Lane) (s : State) : State :=
  if s.cal[n].fg || s.bad (lrxP n) then s
  else
    let s := s.setCal n (fun c => { c with fg := true, fgAt := s.time.dtc.toNat / 65536 })
    let s := gradDrop n ((s.setFlag (lrxP n) lrxLos true).setFlag (lrxP n) lrxCdr false)
    calCheck n (wmkRxOff n (clearFigures n (holdCheck n none s)))

/-! Restart -/

/-- The host rate code of a map's RATE (R17, R155). -/
def hostRate (rate : Nat) : Nat := rate - 1

/-- A host lane restarts with its line lane (R91, R138, R151, R152). -/
def restartHost (h : Host16) (s : State) : State :=
  let s := s.setHost h (fun x => { x with
    rxGen := 0, txGen := 0, parkPos := 0, out := [], gradPub := [], gradNew := false, gradSeq := 0, gradSat := false, buf := [], rxHist := [],
    rxLast := 0, rxNo := 0, fig := {}, chkPos := none, chkSeen := [], chkN := 0, chkErr := 0 })
  let s := ((s.setFlag (hrxP h) hrxChk false).fset (hrxP h) hrxFill 256).wr (ra (hrxP h) 0x058) 0
  let s := (s.wr (ra (hrxP h) 0x060) 0).fset (hrxP h) ⟨0x054, 3, 1⟩ 0
  each (List.range 29) (fun g s => s.wr (ra (hrxP h) (0x0DC + 4 * g)) 0) s

/-- The frame state of a receiver that begins to look for frames: HUNT, or IDLE while LRXn or LFMn is stopped (R60, R64, R67, R374). -/
def huntOrIdle (n : Lane) (s : State) : State :=
  let idle := s.stopped (lfmP n) || s.stopped (lrxP n)
  let s := s.fset (lfmP n) lfmFstate (if idle then 3 else 0)
  s.fset (lrxP n) lrxDec (if s.stopped (lrxP n) then 3 else if s.coding n = 2 then 2 else 1)

/-- The restart of an enabled line lane: every held RWE value takes force, dirty nonlinear sets swap, and framer, receiver and host lanes begin anew; its registers stay as written (R53, R56, R60, R91, R96, R99, R101, R148, R160). -/
def restartLane (n : Lane) (s : State) : State :=
  let s := istAbort n s
  let s := each (laneRwe s n true ++ laneRwe s n false) (fun x s => forceNow x.1 x.2 s) s
  let s := clampCheck n (wmkTxShow n (nlSwap n s))
  let s := s.setLane n (fun l => { l with
    run := true, mfc := 0, enc := 0, subPrev := false, lateTx := none, lateRx := none, frameNo := 0, parkPos := 0, stdTx := 0, stdRx := 0,
    preCnt := 0, found := false, hdrFails := 0, hdrBad := false, rxMfc := none, det := {}, gradPub := [], gradNew := false,
    gradSeq := 0, gradSat := false, rxNo := 0, adcPos := 0, clipPrev := false, epochTx := false, epochRx := false, goodTx := false,
    goodRx := false, holdTx := false, holdRx := false, slewTx := 0, slewRx := 0, realignTx := false, realignRx := false,
    rxFirst := s.coding n != 0, skew := if mapRate (s.mapOf n) = 0 then List.replicate 256 none else [], skewLeft := 0, fig := {}, mon := {} })
  let s := holdBit n (justReset n s)
  let s := s.wr (ra (lfmP n) 0x048) 0
  let s := showFill n (s.wr (ra (lfmP n) 0x04C) 384)
  let s := huntOrIdle n ((s.fset (lrxP n) ⟨0x05C, 6, 5⟩ 0).fset (lrxP n) ⟨0x05C, 3, 1⟩ 0)
  let s := ((s.wr (ra (lrxP n) 0x060) 0).wr (ra (lrxP n) 0x064) 0).wr (ra (lrxP n) 0x068) 0
  let s := each (List.range 51) (fun g s => s.wr (ra (lrxP n) (0x134 + 4 * g)) 0) s
  let s := elasticReset n (each (s.hostsOf n) restartHost s)
  let s := { s with seq := { s.seq with bounds := kput 0 s.seq.bounds n 0 } }
  calCheck n (bareCheck n none (latSpoil n s))

/-- A line lane stops: its map has EN = 0, or its domain is down (R146). -/
def stopLane (n : Lane) (s : State) : State :=
  let s := s.setLane n (fun l => { l with run := false, holdTx := false, holdRx := false, slewTx := 0, slewRx := 0, epochTx := false, epochRx := false })
  let s := holdBit n s
  let s := ((s.fset (lfmP n) lfmFstate 3).fset (lrxP n) lrxDec 3).fset (lfmP n) lfmFill 384
  let s := desyncShow n (gradDrop n ((s.setFlag (lrxP n) lrxLos true).setFlag (lrxP n) lrxCdr false))
  let s := (s.setFlag 0x001 (pwrDusk n) false).setFlag 0x001 (pwrWaking n) false
  let s := each [lrxP n, ltxP n, lfmP n] (fun p s => s.fset p ⟨0x004, 0, 3⟩ 0) s
  calCheck n (wmkCut n (wmkRxOff n (latSpoil n s)))

/-! Park -/

/-- PG_CTRL.PARK (R373). -/
def pgCtrlPark : Fld := ⟨0x008, 1, 1⟩

/-- The line lane whose boundaries a page parks at, if that lane runs; none for a page that parks at once (R374). -/
def parkLane (s : State) (p : Nat) : Option Lane :=
  match pageOf p with
  | some (.lrx, i) | some (.ltx, i) | some (.lfm, i) => let n : Lane := Fin.ofNat 8 i; if s.running n then some n else none
  | some (.hrx, i) | some (.htx, i) =>
    match s.laneOf (Fin.ofNat 16 i) with
    | some n => if s.running n then some n else none
    | none => none
  | _ => none

/-- The line lane that a page LRXn, LTXn or LFMn belongs to. -/
def linePage (p : Nat) : Option Lane :=
  match pageOf p with
  | some (.lrx, i) | some (.ltx, i) | some (.lfm, i) => some (Fin.ofNat 8 i)
  | _ => none

/-- Whether a press in progress holds a page (R375). -/
def inPress (s : State) (p : Nat) : Bool := s.presses.any (fun x => decide (p ∈ x.pages))

/-- A page reads PARKED, and what its block then does (R60, R105, R130, R374). -/
def becomeParked (p : Nat) (s : State) : State :=
  let s := s.fset p pgPark 2
  match pageOf p with
  | some (.lrx, i) =>
    let n : Lane := Fin.ofNat 8 i
    calCheck n (latSpoil n (gradDrop n ((s.fset (lfmP n) lfmFstate 3).fset (lrxP n) lrxDec 3)))
  | some (.lfm, i) =>
    let n : Lane := Fin.ofNat 8 i
    calCheck n (latSpoil n (showFill n (gradDrop n ((s.fset (lfmP n) lfmFstate 3).fset (ltxP n) ltxSrcActive 0))))
  | some (.ltx, i) =>
    let n : Lane := Fin.ofNat 8 i
    calCheck n (showFill n (s.fset (ltxP n) ltxSrcActive 0))
  | some (.hrx, i) => hrxGradDrop (Fin.ofNat 16 i) s
  | _ => s

/-- A page runs again, and how its block resumes (R374). -/
def becomeRunning (p : Nat) (s : State) : State :=
  let s := s.fset p pgPark 0
  match pageOf p with
  | some (.lrx, i) =>
    let n : Lane := Fin.ofNat 8 i
    if s.running n then
      calCheck n (bareCheck n none (huntOrIdle n (s.setLane n (fun l => { l with det := {} }))))
    else s
  | some (.lfm, i) =>
    let n : Lane := Fin.ofNat 8 i
    if s.running n then calCheck n (bareCheck n none (huntOrIdle n (s.fset (ltxP n) ltxSrcActive (txSrc s n)))) else s
  | some (.ltx, i) =>
    let n : Lane := Fin.ofNat 8 i
    calCheck n (s.fset (ltxP n) ltxSrcActive (txSrc s n))
  | _ => s

/-- The pages of the line lanes and of the host lanes. -/
def dataPages : List Nat :=
  (List.range 8).flatMap (fun n => [lrxP n, ltxP n, lfmP n]) ++ (List.range 16).flatMap (fun h => [hrxP h, htxP h])

/-- Whether the device holds a page parked: by a press that changes a map until it completes, or in low power (R148, R328). -/
def mapHeld (s : State) (p : Nat) : Bool :=
  (List.finRange 8).any (fun (n : Lane) => decide (p ∈ s.lanes[n].mapParked)) || (s.lpDown && decide (p ∈ dataPages))

/-- Step 1 of R148: the pages of a line lane and of the host lanes it used are parked, until the press has completed. -/
def mapPark (n : Lane) (hosts : List Host16) (s : State) : State :=
  let ps := [lrxP n, ltxP n, lfmP n] ++ hosts.flatMap (fun (h : Host16) => [hrxP h, htxP h])
  each ps becomeParked (s.setLane n (fun l => { l with mapParked := ps }))

/-- The pages that a press held parked run again, but for those that PG_CTRL.PARK keeps parked (R148, R374). -/
def mapRelease (n : Lane) (s : State) : State :=
  let ps := s.lanes[n].mapParked
  each ps (fun p s => if s.flag p pgCtrlPark then s else becomeRunning p s) (s.setLane n (fun l => { l with mapParked := [] }))

/-- A write of PARK = 1 (R374). -/
def parkOp (p : Nat) (s : State) : State :=
  let s := match linePage p with | some n => istAbort n s | none => s
  let s := s.fset p pgCtrlPark 1
  let st := s.fget p pgPark
  if st = 3 then s.fset p pgPark 2
  else if st = 0 then
    if (parkLane s p).isSome || (p == 0x008 && inPress s p) then s.fset p pgPark 1 else becomeParked p s
  else s

/-- PARK (R374). -/
def execPark (p : BitVec 12) (s : State) : Host.Outcome State Fault Refusal :=
  nxt (if (pageOf p.toNat).isSome then parkOp p.toNat s else s)

/-- PARKED: the frame boundary at which a page that is PARKING reads PARKED (R374). -/
def execParked (p : BitVec 12) (s : State) : Host.Outcome State Fault Refusal :=
  nxt (if s.fget p.toNat pgPark = 1 ∧ (pageOf p.toNat).isSome then becomeParked p.toNat s else s)

/-- A write of PARK = 0 (R374). -/
def unparkOp (p : Nat) (s : State) : State :=
  let s := match linePage p with | some n => istAbort n s | none => s
  let s := s.fset p pgCtrlPark 0
  let st := s.fget p pgPark
  if st = 1 then s.fset p pgPark 0
  else if st = 2 then (if (parkLane s p).isSome || inPress s p || mapHeld s p then s.fset p pgPark 3 else becomeRunning p s)
  else s

/-- UNPARK (R374). -/
def execUnpark (p : BitVec 12) (s : State) : Host.Outcome State Fault Refusal :=
  nxt (if (pageOf p.toNat).isSome then unparkOp p.toNat s else s)

/-- UNPARK_RESTART: the frame boundary at which an UNPARKING page runs again; where a press applies, the restart follows it (R374, R377). -/
def execUnparkRestart (p : BitVec 12) (s : State) : Host.Outcome State Fault Refusal :=
  nxt (if s.fget p.toNat pgPark = 3 ∧ inPress s p.toNat = false ∧ mapHeld s p.toNat = false then becomeRunning p.toNat s else s)

end Sys2Proof.Machine
end

