-- ==== Sys2Proof/Machine/Trace.lean ====
section
/-! DEFINITION. The trace port: packets, their queues and losses, and the sending of one packet (R420, R421, R424). -/

namespace Sys2Proof.Machine

/-- Page TRC. -/
def trcP : Nat := 0x00A
/-- TRC_STAT, sending (R424). -/
def trcSending : Fld := ⟨0x068, 0, 1⟩
/-- TRC_STAT, LOSS packets sent. -/
def trcLosses : Fld := ⟨0x068, 16, 8⟩

/-- TRC_CTRL.EN and the enable bit of a class: 1 EVENT, 2 STEP, 6 POINT (R424). -/
def trcOn (s : State) (b : Nat) : Bool := let w := s.rd (ra trcP 0x040); tb w 0 && tb w b

/-- The pins send: EN = 1, and neither low power nor thermal shutdown makes them high impedance (R420). -/
def trcDrives (s : State) : Bool := tb (s.rd (ra trcP 0x040)) 0 && s.pwr.coreOn && decide (s.fget 0x001 pwrState < 2) && !s.shut

/-- DTC cycles[31:0] (R420). -/
def trcTime (s : State) : Nat := s.time.dtc.toNat / 65536 % 2 ^ 32

/-- A packet is dropped: it is counted for a LOSS packet, and event 500 names the class (R421). -/
def trcDrop (cls : Nat) (s : State) : State :=
  let t := s.trc
  let t := if cls = 2 then { t with lost2 := t.lost2 + 1 } else { t with lost3 := t.lost3 + 1 }
  raise 500 cls { s with trc := t }

/-- An EVENT packet of a log entry; none is ever dropped (R420, R421). -/
def trcEvent (w : Nat) (s : State) : State :=
  if trcOn s 1 && trcDrives s then { s with trc := { s.trc with evq := s.trc.evq ++ [BitVec.ofNat 64 w] } } else s

/-- A STEP packet of an engine: 0 run start, 1 branch taken, 2 END, 3 abort; none with the observation lock blown (R409, R420, R421). -/
def trcStep (e : Eng) (what : Nat) (s : State) : State :=
  if trcOn s 2 && trcDrives s && !s.sec.lock && bits (s.rd (ra trcP 0x040)) 3 3 == e.val then
    let g := s.eng[e]
    let p := e.val * 2 ^ 61 + g.pc % 32768 * 2 ^ 46 + what * 2 ^ 44 + g.sheet % 256 * 2 ^ 36 + g.inst % 16 * 2 ^ 32 + trcTime s
    if s.trc.stq.length < 64 then { s with trc := { s.trc with stq := s.trc.stq ++ [BitVec.ofNat 64 p] } } else trcDrop 2 s
  else s

/-- A POINT packet of a star-map point read as value and status (R420, R421). -/
def trcPoint (index value status : Nat) (s : State) : State :=
  let p := index % 2 ^ 18 * 2 ^ 86 + status % 8 * 2 ^ 83 + value % 2 ^ 48 * 2 ^ 32 + trcTime s
  if s.trc.ptq.length < 64 then { s with trc := { s.trc with ptq := s.trc.ptq ++ [BitVec.ofNat 104 p] } } else trcDrop 3 s

/-- The bytes of a payload, most significant first. -/
def packetBytes (k v : Nat) : List Nat := (bytesLE k v).reverse.map (fun b => b.toNat)

/-- The characters of a packet, true marking a control character: K27.7, TYPE, payload, CRC-8 and K29.7 (R420). -/
def packetChars (body : List Nat) : List (Bool × Nat) :=
  [(true, 0xFB)] ++ body.map (fun b => (false, b)) ++ [(false, crc8 body), (true, 0xFD)]

/-- A LOSS packet of a class is queued once its queue has space (R421). -/
def trcLoss (cls : Nat) (s : State) : State :=
  let n := if cls = 2 then s.trc.lost2 else s.trc.lost3
  if n = 0 then s
  else
    let t := if cls = 2 then { s.trc with lost2 := 0 } else { s.trc with lost3 := 0 }
    { s with trc := { t with lossq := t.lossq ++ [(cls, min 255 n)] } }

/-- The port sends one packet: LOSS, then EVENT, STEP and POINT (R421; log entry 33). -/
def trcSend (s : State) : State :=
  if !trcDrives s then s
  else
    let out (body : List Nat) (t : TrcSt) (s : State) : State := { s with trc := { t with last := body } }.setFlag trcP trcSending true
    match s.trc.lossq, s.trc.evq, s.trc.stq, s.trc.ptq with
    | (c, n) :: r, _, _, _ => (out [0x0F, c, n] { s.trc with lossq := r } s).fsat trcP trcLosses 1
    | [], w :: r, _, _ => out (0x01 :: packetBytes 8 w.toNat) { s.trc with evq := r } s
    | [], [], w :: r, _ => trcLoss 2 (out (0x02 :: packetBytes 8 w.toNat) { s.trc with stq := r } s)
    | [], [], [], w :: r => trcLoss 3 (out (0x03 :: packetBytes 13 w.toNat) { s.trc with ptq := r } s)
    | [], [], [], [] => s.setFlag trcP trcSending false

end Sys2Proof.Machine
end

