-- ==== Sys2Proof/Machine/Sched.lean ====
section
/-! DEFINITION. The scheduler of the engines: which engine serves which class, the start and the abort of runs, dispatch, promotion, triggers that commands fire, and the drain (R177, R196 to R205). -/

namespace Sys2Proof.Machine

/-- Page ENGk. -/
def engP (e : Nat) : Nat := 0x010 + e
/-- Page SEQ. -/
def seqP : Nat := 0x00C
/-- ENG_CTRL.EN (R207). -/
def engEn : Fld := ⟨0x040, 0, 1⟩
/-- SEQ_CTRL.EN and AGE_T (R208). -/
def seqEn : Fld := ⟨0x040, 0, 1⟩
/-- SEQ_CTRL.AGE_T. -/
def seqAge : Fld := ⟨0x040, 16, 16⟩
/-- OCC.OCC and OCC.PEAK (R208). -/
def occNow : Fld := ⟨0x048, 0, 10⟩
/-- OCC.PEAK. -/
def occPeak : Fld := ⟨0x048, 16, 10⟩
/-- FAIL_CNT of binding b. -/
def bindFail (b : Nat) : Fld := ⟨0x100 + 4 * b, 29, 2⟩
/-- EN of binding b. -/
def bindEn (b : Nat) : Fld := ⟨0x100 + 4 * b, 28, 1⟩
/-- CLASS of binding b. -/
def bindClass (b : Nat) : Fld := ⟨0x100 + 4 * b, 27, 1⟩

/-- Star-map counters of ENGk: 0 RUNS, 1 STEPS, 2 FAULTS, 3 WDOG (R407). -/
def cEng (e j : Nat) : Nat := 0x00040 + 4 * e + j

/-- Whether an engine serves the pool: ENG0 to ENG3, usable, and not standing in for ENG4 (R203). -/
def inPool (s : State) (e : Eng) : Bool := decide (e.val < 4) && !s.bad (engP e) && sysEng s != some e

/-- Whether an engine may take a run now (R202, R203): it is idle and enabled; EN of ENG4 reads 1. -/
def engFree (s : State) (e : Eng) : Bool :=
  s.eng[e].phase == .idle && (e == 4 || s.flag (engP e) engEn) && !s.bad (engP e)

/-- The occurrences of MEM_RELOADED of SHTM that wait to be logged, which the events of a restarted run follow (R401). -/
def reloadCause3 (s : State) : List Nat := s.waiting 66 (fun d => d % 8 == 3)

/-- A fault of the run of a binding is counted in FAIL_CNT; with FAIL_CNT at 3 a pool binding is disabled with event 146 (R201). -/
def bindFault (b : Nat) (s : State) : State :=
  let n := s.fget seqP (bindFail b)
  if n < 3 then s.fset seqP (bindFail b) (n + 1)
  else if s.flag seqP (bindClass b) then s
  else raise 146 b (s.setFlag seqP (bindEn b) false)

/-- The run of an engine is aborted with a cause of R197, 15 being the watchdog, at a step address (R197, R198, R201, R208). -/
def abortRun (e : Eng) (cause step : Nat) (s : State) : State :=
  let g := s.eng[e]
  if g.phase = .idle then s
  else
    let s := faultInfo e cause g.sheet step (s.setEng e (fun g => { g with phase := .idle }))
    let s := trcStep e 3 s
    let s := addCtr (cEng e (if cause = 15 then 3 else 2)) 1 s
    let s := if cause ≤ 6 ∨ cause = 15 then bindFault g.bind s else s
    raiseAfter (if cause = 15 then 144 else 145) (if cause = 15 then e.val else e + 8 * cause) (reloadCause3 s) s

/-- A request whose sheet has no valid directory entry is discarded with cause 9 (R197). -/
def refuseSheet (sheet : Nat) (s : State) : State := raise 145 (7 + 9 * 8) (faultInfo 7 9 sheet 0 s)

/-- The state that an engine takes at the start of a run (R177); posted writes of an earlier run keep their places. -/
def EngSt.start (g : EngSt) (r : SeqReq) (entry : Nat) : EngSt :=
  { g with acc0 := 0, acc1 := 0, t := (Vector.replicate 8 0).set 7 (BitVec.ofNat 24 r.inst), ag := Vector.replicate 8 {}, flg := 0,
           pc := entry, sheet := r.sheet, inst := r.inst, steps := 0, phase := .running, bind := r.bind, prio := r.prio, sigs := 0, skip := r.skip }

/-- The engine that a request would start on now; none where its class has none free, its sheet and instance run already, its sheet is being reloaded, or the engine of system requests runs a reload (R199, R201 to R203, R313). -/
def engFor (s : State) (r : SeqReq) : Option Eng :=
  if s.seq.reload.any (fun x => x.1 == r.sheet) || (r.sys && !s.seq.reload.isEmpty) then none
  else if (List.finRange 5).any (fun e => s.eng[e].phase != .idle && s.eng[e].sheet == r.sheet && s.eng[e].inst == r.inst) then none
  else if r.sys then
    match sysEng s with
    | some e => if engFree s e then some e else none
    | none => none
  else if s.flag seqP seqEn then (List.finRange 5).find? (fun e => inPool s e && engFree s e) else none

/-- The request dispatched next: of those that can start now, the oldest of the highest priority (R202; log entry 19). -/
def nextReq (s : State) : Option (SeqReq × Eng) :=
  [0, 1, 2].findSome? (fun p => (s.seq.queue.filter (fun r => r.prio == p)).findSome? (fun r => (engFor s r).map (fun e => (r, e))))

/-- A dispatch: the request leaves the queue and its run starts, or it is discarded with cause 9 (R177, R196, R197, R202, R204). -/
def dispatchOp (s : State) : State :=
  if s.seq.drain ≠ 0 then s
  else
    match nextReq s with
    | none => s
    | some (r, e) =>
      let s := { s with seq := { s.seq with queue := s.seq.queue.erase r } }
      let d := s.dirOf r.sheet
      if tb d 31 = false then refuseSheet r.sheet s
      else trcStep e 0 (addCtr (cEng e 0) 1 (s.setEng e (fun g => g.start r (bits d 0 15))))

/-- REQUEST_DISPATCH: what counting has triggered is queued first (R200, R202; log entry 7). -/
def execRequestDispatch (s : State) : Host.Outcome State Fault Refusal := nxt (dispatchOp (fireNext s))

/-- REQUEST_PROMOTION: a request that has waited AGE_T rises one priority and keeps its age (R202). -/
def execRequestPromotion (idx : Nat) (s : State) : Host.Outcome State Fault Refusal :=
  nxt (if s.fget seqP seqAge = 0 then s
  else { s with seq := { s.seq with queue := modNth s.seq.queue idx (fun r => { r with prio := r.prio - 1 }) } })

/-- HOST_CMD (R200). -/
def execHostCmd (code : BitVec 9) (s : State) : Host.Outcome State Fault Refusal := nxt (fire 6 code.toNat s)

/-- SEQ_TIMER_EXPIRY: a timer whose PERIOD is not 0 fires its bindings (R200, R208). -/
def execSeqTimerExpiry (k : Fin 16) (s : State) : Host.Outcome State Fault Refusal :=
  nxt (if s.rd (ra seqP (0x060 + 4 * k)) = 0 then s else fire 1 k s)

/-- A write of TMR_k; the timer restarts, its expiry being SEQ_TIMER_EXPIRY (R208). -/
def tmrWriteOp (k : Fin 16) (v : Nat) (s : State) : State := s.wr (ra seqP (0x060 + 4 * k)) (v % 2 ^ 24)

/-- TMR_WRITE (R208). -/
def execTmrWrite (k : Fin 16) (v : Word) (s : State) : Host.Outcome State Fault Refusal := nxt (tmrWriteOp k v.toNat s)

/-- Pool engines that are usable, and how many of them run or wait (R205). -/
def poolUse (s : State) : Nat × Nat :=
  let l := (List.finRange 5).filter (fun e => inPool s e)
  (l.length, (l.filter (fun e => s.eng[e].phase != .idle)).length)

/-- The cycles of the device time counter in 1.024 ms (R170, R205). -/
def occCycles : Nat := 160000

/-- One cycle of the pool's occupancy: at the end of 1.024 ms its share in 0.1 % is published, and PEAK keeps the highest (R205, R208; log entry 63). -/
def occTick (s : State) : State :=
  if s.pwr.coreOn = false then s
  else
    let (k, b) := poolUse s
    let q := s.seq
    let n := q.occN + 1
    let s := { s with seq := { q with occN := n % occCycles, occPool := if n = occCycles then 0 else q.occPool + k, occBusy := if n = occCycles then 0 else q.occBusy + b } }
    if n < occCycles then s
    else
      let u := if q.occPool + k = 0 then 0 else 1000 * (q.occBusy + b) / (q.occPool + k)
      (s.fset seqP occNow u).fset seqP occPeak (max u (s.fget seqP occPeak))

/-- A drain starts: dispatch stops and every WAIT in progress ends with C = 1 (R204). -/
def drainStart (kind : Nat) (s : State) : State :=
  let s := { s with seq := { s.seq with drain := kind } }
  each ((List.finRange 5).filter (fun e => waits s e)) (fun e s => waitEnd e true s) s

/-- The end of a drain: runs still in progress are aborted with cause 10 (R204). -/
def drainAbort (s : State) : State := each (List.finRange 5) (fun e s => abortRun e 10 s.eng[e].pc s) s

/-- DRAIN_TIMEOUT (R204). -/
def execDrainTimeout (s : State) : Host.Outcome State Fault Refusal := nxt (if s.seq.drain = 0 then s else drainAbort s)

/-- Dispatch resumes after a drain (R204). -/
def drainEnd (s : State) : State := { s with seq := { s.seq with drain := 0 } }

/-- ENG_ABORT: the run in progress is aborted with cause 8 (R197, R207). -/
def execEngAbort (e : Eng) (s : State) : Host.Outcome State Fault Refusal := nxt (abortRun e 8 s.eng[e].pc s)

/-- A write of ENG_CTRL.EN; on ENG4 it is ignored (R203, R207). -/
def engEnOp (e : Eng) (on : Bool) (s : State) : State := if e = 4 then s else s.setFlag (engP e) engEn on

/-- ENG_EN_WRITE (R203). -/
def execEngEnWrite (e : Eng) (on : Bool) (s : State) : Host.Outcome State Fault Refusal := nxt (engEnOp e on s)

end Sys2Proof.Machine
end

