-- ==== Sys2Proof/Machine/Press.lean ====
section
/-! DEFINITION. The press: validation of staged values, their application at the boundaries of the line lanes, the change of maps and of output modes, and the restart of lanes; and steps 1 to 3 of the entry to low power, which wait for a press to end (R33, R38, R120, R147, R148, R159, R328, R340, R373 to R377, R485). -/

namespace Sys2Proof.Machine

/-! Pages -/

/-- Whether a block's page lies in D_AON (R323). -/
def Kind.inAon : Kind → Bool
  | .sys | .pwr | .mgt | .clk | .sec | .nvs => true
  | _ => false

/-- Whether a block's page lies in D_HK (R323). -/
def Kind.inHk : Kind → Bool
  | .thm | .evt | .hka | .hkb | .adac | .nco | .las | .wmk => true
  | _ => false

/-- POWER of a page as the gateway holds it: 0 on, 1 dusk, 2 retained, 3 off, 4 UNUSABLE, 7 not in the page map (R31, R323, R381). -/
def pagePower (s : State) (p : Nat) : Nat :=
  match pageOf p with
  | none => 7
  | some (k, _) =>
    if s.bad p then 4
    else if k.inAon then 0
    else if k.inHk then (if s.pwr.hkOn then 0 else 3)
    else if s.pwr.coreOn then s.fget p ⟨0x004, 0, 3⟩
    else if 2 ≤ s.fget 0x001 pwrState then 2 else 3

/-- The staged registers of a page with their staged bits (R6, R10). -/
def pageRws (page : Nat) : List (Nat × Nat) :=
  match pageOf page with
  | none => []
  | some (k, _) => ((rowsOf k).filter (fun r => r.rws != 0)).flatMap (fun r =>
      (List.range r.count).map (fun i => (ra page (r.off + r.stride * i), r.rws)))

/-- What a staged register would hold after a press of some pages: its twin where its page is pressed, the live value elsewhere (R147, R376). -/
def afterPress (s : State) (pages : List Nat) (a : Nat) : Nat :=
  if a / 1024 ∈ pages then s.rd (a + twin) else s.rd a

/-- The map of line lane n after a press. -/
def mapAfter (s : State) (pages : List Nat) (n : Lane) : Nat := afterPress s pages (ra 0x008 (0x040 + 4 * n)) % 2048

/-- Whether a press changes the map of line lane n. -/
def mapChanges (s : State) (pages : List Nat) (n : Lane) : Bool := mapAfter s pages n != s.mapOf n

/-- LFM_MODE of line lane n after a press. -/
def lfmAfter (s : State) (pages : List Nat) (n : Lane) : Nat := afterPress s pages (ra (lfmP n) 0x040)

/-- Whether a press restarts line lane n: its map changes, or its LFM or LRX page is pressed, and the lane is enabled (R91, R148). -/
def restarts (s : State) (pages : List Nat) (n : Lane) : Bool :=
  mapEn (mapAfter s pages n) && (mapChanges s pages n || decide (lfmP n ∈ pages) || decide (lrxP n ∈ pages))

/-! Validation -/

/-- Why a press fails: the cause of R375, with the page and the offset that ERR_INFO names. -/
structure PressFail where
  cause : Nat
  page : Nat
  off : Nat
  deriving DecidableEq, Repr

/-- Whether a pressed page's staged fields are out of range, reserved or in conflict (R38, R68, R81, R116, R109, R131, R136, R144). -/
def fieldsBad (s : State) (p : Nat) : Bool :=
  let m := s.rd (ra p 0x040 + twin)
  match pageOf p with
  | some (.lfm, _) => bits m 0 2 == 3 || (bits m 0 2 == 2 && bits m 2 2 != 1) || (bits m 0 2 != 0 && tb m 4)
  | some (.lrx, _) => decide (bits m 0 5 < 4 ∨ 20 < bits m 0 5)
  | some (.ltx, _) => bits m 0 2 == 3 || bits m 2 2 == 3 || bits m 4 2 == 3
  | some (.hrx, _) => decide (bits m 0 4 < 2 ∨ 12 < bits m 0 4)
  | some (.htx, _) => decide (2 ≤ bits m 1 2) || bits m 3 2 == 3
  | _ => false

/-- The fourth condition of R38: an enabled line lane whose LFM RATE differs from its map's. -/
def rateFail (s : State) (pages : List Nat) : Option PressFail :=
  ((List.finRange 8).find? (fun (n : Lane) =>
    (decide (lfmP n ∈ pages) || decide (0x008 ∈ pages)) && mapEn (mapAfter s pages n)
      && bits (lfmAfter s pages n) 2 2 != mapRate (mapAfter s pages n))).map (fun n =>
    if lfmP n ∈ pages then ⟨3, lfmP n, 0x040⟩ else ⟨3, 0x008, 0x040 + 4 * n⟩)

/-- What R147 finds wrong with the map of line lane n: cause 4 where host lanes A and B are one or another enabled lane uses one of its host lanes, cause 7 where a host lane is UNUSABLE or its group's domain has faulted. -/
def mapCause (s : State) (pages : List Nat) (n : Lane) : Option Nat :=
  let m := mapAfter s pages n
  let hs := mapHosts m
  if (mapEn m && mapRate m == 0 && mapA m == mapB m)
      || (List.finRange 8).any (fun (j : Lane) => j != n && (mapHosts (mapAfter s pages j)).any (fun (h : Host16) => decide (h ∈ hs))) then some 4
  else if hs.any (fun (h : Host16) => s.bad (hrxP h) || s.bad (htxP h) || decide (10 + h.val / 4 ∈ s.pwr.faults)) then some 7
  else none

/-- The first line lane whose map fails R147, where XBAR is pressed. -/
def mapFail (s : State) (pages : List Nat) : Option PressFail :=
  if 0x008 ∈ pages then
    (List.finRange 8).findSome? (fun (n : Lane) => (mapCause s pages n).map (fun c => ⟨c, 0x008, 0x040 + 4 * n⟩))
  else none

/-- A waveform source whose memory has failed its test (R222). -/
def wavFail (s : State) (pages : List Nat) : Option PressFail :=
  ((List.finRange 8).find? (fun (n : Lane) => decide (ltxP n ∈ pages) && bits (s.rd (ra (ltxP n) 0x040 + twin)) 2 2 == 2
    && tb (s.rd (ra bistP 0x14C)) (23 + n))).map (fun n => ⟨7, ltxP n, 0x040⟩)

/-- Free timing staged while REFCLK_LINE is absent (R159). -/
def clockFail (s : State) (pages : List Nat) : Option PressFail :=
  ((List.finRange 8).find? (fun (n : Lane) => decide (lfmP n ∈ pages) && tb (lfmAfter s pages n) 4 && !s.flag 0x007 clkRefl)).map
    (fun n => ⟨6, lfmP n, 0x040⟩)

/-- The symbol rate of each lane that would run after a press (R340). -/
def rateAfter (s : State) (pages : List Nat) (n : Lane) : Option Nat :=
  if !mapEn (mapAfter s pages n) then none
  else if restarts s pages n then some (symRateHz (bits (lfmAfter s pages n) 0 2) (bits (lfmAfter s pages n) 2 2))
  else if s.running n then some (laneRate s n) else none

/-- The lane at which a press fails the check of a demand rise (R340). -/
def paceFail (s : State) (pages : List Nat) : Option Lane :=
  if demandRise s (rateAfter s pages) then demandFail s (rateAfter s pages) else none

/-- What ERR_INFO names for a press that fails the check of R340 at a line lane. -/
def paceErr (s : State) (pages : List Nat) (n : Lane) : PressFail :=
  if mapChanges s pages n then ⟨5, 0x008, 0x040 + 4 * n⟩
  else if lfmP n ∈ pages then ⟨5, lfmP n, 0x040⟩
  else if lrxP n ∈ pages then ⟨5, lrxP n, 0x040⟩
  else ⟨5, pages.headD 0, 0⟩

/-- Validation but for a page already in a press: low-power entry, the pages' states, their fields, their agreement, their maps, resources and clocks, in that order (R375; log entry 21). -/
def pressCheck (s : State) (pages : List Nat) : Option PressFail :=
  let at_ (c : Nat) (p : Nat → Bool) (off : Nat) : Option PressFail := (pages.find? p).map (fun x => ⟨c, x, off⟩)
  if s.fget 0x001 pwrState ≠ 0 then some ⟨10, pages.headD 0, 0⟩
  else
    at_ 9 (fun p => decide (2 ≤ pagePower s p)) 0
      <|> at_ 1 (fun p => !s.parked p) 0x004
      <|> at_ 2 (fieldsBad s) 0x040
      <|> rateFail s pages <|> mapFail s pages <|> wavFail s pages <|> clockFail s pages

/-- A failed press: RESULT 2 and CAUSE in each page pressed, PRESS_GSTAT for a group, ERR_INFO, and event 1 (R375, R376). -/
def pressFailed (group : Bool) (pages : List Nat) (f : PressFail) (s : State) : State :=
  let stat (a : Nat) (s : State) : State := s.wr a (setBits (setBits (s.rd a) 0 2 2) 2 6 f.cause)
  let s := each (pages.filter (fun p => (pageOf p).isSome)) (fun p s => stat (ra p 0x020) s) s
  let s := onlyIf group (fun s => errInfo 0x000 f.page f.off f.cause 1 (stat (ra 0x000 0x04C) s)) s
  let s := onlyIf (pageOf f.page).isSome (errInfo f.page f.page f.off f.cause 1) s
  raise 1 f.cause s

/-! Low-power entry, steps 1 to 3 -/

/-- Steps 1 to 3 of R328: lasers off, watermark frames and flares ended, every line and host lane stopped and parked, and the drain (log entry 79). -/
def lpSteps (s : State) : State :=
  let s := each (List.finRange 8) (fun n s => wmkCut n (flareCut n s)) (lasForceAll s)
  let s := each (List.finRange 8) (fun n s => (stopLane n s).setLane n (fun l => { l with calRate := 0, modeSwitch := none })) s
  each dataPages becomeParked (drainStart 1 s)

/-- Steps 1 to 3 begin when no press is applying (R377). -/
def lpHook (s : State) : State :=
  if s.presses.isEmpty && s.fget 0x001 pwrState == 1 && s.seq.drain != 1 then lpSteps s else s

/-! Starting lanes -/

/-- The calibration of a lane that activates: it has made no swap, and has no reference temperature (R217, R218). -/
def calActivate (n : Lane) (s : State) : State :=
  (s.setCal n (fun c => { c with round := 0, rqfLast := 0, tRef := none, fastLeft := 0 })).wr (ra bistP (0x044 + 0x20 * n)) 0

/-- The subdomain of D_CORE and the rest of D_LANEn that a line lane needs are on, but where they have faulted (R322, R325). -/
def laneUp (n : Lane) (s : State) : State :=
  if 2 + n.val ∈ s.pwr.faults ∨ 16 + n.val ∈ s.pwr.faults then s
  else
    { s with pwr := { s.pwr with
      laneOn := s.pwr.laneOn ||| BitVec.ofNat 8 (2 ^ n.val), subOn := s.pwr.subOn ||| BitVec.ofNat 8 (2 ^ n.val),
      waitGood := s.pwr.waitGood.filter (fun d => d != 2 + n.val && d != 16 + n.val) } }

/-- A line lane starts, its domains on: it restarts, with foreground calibration at its activation and where its symbol rate is not the one it was last calibrated at (R91, R219). -/
def startLane (n : Lane) (s : State) : State :=
  let s := onlyIf (s.lanes[n].calRate == 0) (calActivate n) (laneUp n s)
  let s := (restartLane n s).setLane n (fun l => { l with wakeCause := 0 })
  if s.lanes[n].calRate = laneRate s n then s
  else fgBegin n (s.setLane n (fun l => { l with calRate := laneRate s n }))

/-- Dusk or Waking ends on a line lane (R323, R325). -/
def duskClear (n : Lane) (s : State) : State :=
  let s := (s.setFlag 0x001 (pwrDusk n) false).setFlag 0x001 (pwrWaking n) false
  each [lrxP n, ltxP n, lfmP n] (fun p s => s.fset p ⟨0x004, 0, 3⟩ 0) s

/-- The wakeCause of a lane that waits at its activation, not in an exit from dusk (R454). -/
def activation : Nat := 8

/-- A line lane is activated: it starts where the demand check passes, and else waits in Waking (R219, R330, R454). -/
def activate (n : Lane) (s : State) : State :=
  if !mapEn (s.mapOf n) || s.running n then s
  else
    let (ok, s) := demandCheck n s
    if ok then startLane n (duskClear n s)
    else (s.setFlag pwrP (pwrWaking n) true).setLane n (fun l => { l with run := true, wakeCause := activation })

/-- A line lane leaves dusk or Waking and restarts; it is calibrated in FAST, and event 34 names the cause (R219, R325, R347). -/
def leaveDusk (n : Lane) (cause : Nat) (s : State) : State :=
  raise 34 (n + 8 * cause) (calFastOn n (startLane n (duskClear n s)))

/-! Host groups and maps -/

/-- XBAR_STAT shows the host lanes in use and the groups that are on (R155). -/
def xbarShow (s : State) : State :=
  let used := ((List.finRange 16).filter (fun (h : Host16) => (s.laneOf h).isSome)).foldl (fun (a : Nat) (h : Host16) => a + 2 ^ h.val) 0
  s.wr (ra 0x008 0x060) (used + s.pwr.hostOn.toNat * 65536)

/-- A host lane that no enabled line lane uses: idle, its receiver without signal or lock (R149, R156, R486). DESIGN CHOICE, log entry 78: LOS reads 1 and CDR_LOCK 0 while it is unmapped. -/
def unmapHost (h : Host16) (s : State) : State :=
  let s := ((s.fset (hrxP h) hrxRate 3).fset (htxP h) htxRate 3).setFlag (htxP h) htxPll false
  let s := hrxLolOp h (hrxLosOp h s)
  substOff h ((s.setFlag (hrxP h) hrxChk false).setHost h (fun x => { x with chkPos := none, chkSeen := [] }))

/-- A host lane is mapped: its transmit PLL locks anew, and at a new rate its clock recovery as well (R17, R146, R156, R486; log entry 22). -/
def mapHost (rate : Nat) (h : Host16) (s : State) : State :=
  let s := s.setFlag (htxP h) htxPll false
  if s.fget (hrxP h) hrxRate = hostRate rate ∧ s.fget (htxP h) htxRate = hostRate rate then s
  else hrxLolOp h ((s.fset (hrxP h) hrxRate (hostRate rate)).fset (htxP h) htxRate (hostRate rate))

/-- Whether one of a host group's lanes is mapped. -/
def groupUsed (s : State) (k : Nat) : Bool :=
  (List.finRange 16).any (fun (h : Host16) => h.val / 4 == k && (s.laneOf h).isSome)

/-- Groups that a map needs and that are off are powered up: each waits for its power-good (R33, R322). -/
def groupsUp (s : State) : State :=
  let need := (List.range 4).filter (fun k => groupUsed s k && !s.pwr.hostOn.getLsbD k && decide (10 + k ∉ s.pwr.faults) && decide (10 + k ∉ s.pwr.waitGood))
  { s with pwr := { s.pwr with waitGood := s.pwr.waitGood ++ need.map (fun k => 10 + k) } }

/-- Groups of which no lane is mapped are powered down (R33). -/
def groupsDown (s : State) : State :=
  let off := (List.range 4).filter (fun k => !groupUsed s k)
  let on := s.pwr.hostOn.toNat
  let s := { s with pwr := { s.pwr with
    hostOn := BitVec.ofNat 4 (off.foldl (fun a k => setBits a k 1 0) on), waitGood := s.pwr.waitGood.filter (fun d => !(off.map (fun k => 10 + k)).contains d) } }
  xbarShow s

/-- The map of a line lane takes its staged value: host lanes are released and taken, and groups powered up (R146 to R149). -/
def mapApply (n : Lane) (s : State) : State :=
  let old := s.hostsOf n
  let a := ra 0x008 (0x040 + 4 * n)
  let s := s.wr a (s.rd (a + twin) % 2048)
  let s := each (old.filter (fun (h : Host16) => (s.laneOf h).isNone)) unmapHost s
  xbarShow (groupsUp (each (s.hostsOf n) (mapHost (mapRate (s.mapOf n))) s))

/-! Applying -/

/-- Whether a press of LTXn changes the output mode; the first press to name a mode after power-on starts from OFF as well (R120, R121). -/
def modeChanges (s : State) (n : Lane) : Bool :=
  let new := bits (s.rd (ra (ltxP n) 0x040 + twin)) 0 2
  new != s.fget (ltxP n) ⟨0x040, 0, 2⟩ || (!s.lanes[n].modeNamed && new != 0)

/-- A page's staged values take force, with what follows for its block (R120, R127, R128, R141, R144, R276). -/
def applyPage (p : Nat) (s : State) : State :=
  let copy (s : State) : State :=
    each (pageRws p) (fun x s => s.wr x.1 ((s.rd x.1 &&& (0xFFFFFFFF ^^^ x.2)) ||| (s.rd (x.1 + twin) &&& x.2))) s
  match pageOf p with
  | some (.ltx, i) =>
    let n : Lane := Fin.ofNat 8 i
    let sw := modeChanges s n
    let s := (copy s).setLane n (fun l => { l with srcPos := 0, wavUe := false })
    if sw then ((s.fset p ltxOut 3).setFlag p ltxComply false).setLane n (fun l => { l with modeSwitch := some (s.fget p ⟨0x040, 0, 2⟩) }) else s
  | some (.lfm, i) =>
    let n : Lane := Fin.ofNat 8 i
    let s := copy s
    if s.coding n = 2 then
      let a := ra (wmkP n) wmkTxEn.off
      wmkTxShow n (((s.fset (wmkP n) wmkTxEn 0).setForce a (setBits (s.inForce a) wmkTxEn.lsb 1 0)))
    else s
  | some (.hrx, i) => ((copy s).setFlag p hrxChk false).setHost (Fin.ofNat 16 i) (fun x => { x with chkPos := none, chkSeen := [] })
  | some (.htx, i) => (copy s).setHost (Fin.ofNat 16 i) (fun x => { x with patPos := 0 })
  | some (.xbar, _) => s
  | _ => copy s

/-- A held write to a staging twin is made when the press has ended (R377). -/
def heldWrites (pages : List Nat) (s : State) : State :=
  let mine := s.twinHeld.filter (fun e => decide (e.1 / 1024 ∈ pages))
  let s := { s with twinHeld := s.twinHeld.filter (fun e => decide (e.1 / 1024 ∉ pages)) }
  each mine (fun e s => s.wr e.1 e.2.toNat) s

/-- A lane that a press restarts, its pages released where the press has parked them: one in dusk or Waking leaves it with event 34, cause 2; one whose map has EN = 0 stops; one at its activation passes the demand check first (R146, R325, R454). -/
def pressRestart (n : Lane) (s : State) : State :=
  let s := mapRelease n s
  if !mapEn (s.mapOf n) then stopLane n s
  else if s.dusky n then leaveDusk n 2 s
  else if s.lanes[n].wakeCause = activation then activate n s
  else startLane n s

/-- SYS_PRESS_DONE: every occurrence of a pressed page that waits to be logged comes before it, and every later one after it (R398). -/
def pressEvent (x : PressRun) (s : State) : State :=
  let occ := s.nextOcc
  let mine (r : EvReq) : Bool := match pageOfEvent r.ev with | some p => x.pages.contains p | none => false
  let s := raiseAfter 0 (if x.group then 0x7F else x.pages.headD 0 % 128) ((s.evt.queue.filter mine).map (fun r => r.id)) s
  { s with evt := { s.evt with queue := s.evt.queue.map (fun r => if r.id == occ then { r with pages := x.pages } else r) } }

/-- A press completes: the results, event 0, the restarts, held writes and unparks (R375 to R377). -/
def pressComplete (x : PressRun) (s : State) : State :=
  let s := { s with presses := s.presses.filter (fun y => y.pages != x.pages) }
  let done (a : Nat) (s : State) : State := s.wr a (setBits (setBits (s.rd a) 0 2 1) 8 8 (bits (s.rd a) 8 8 + 1))
  let s := each x.pages (fun p s => (done (ra p 0x020) s).fset p pgPress 0) s
  let s := onlyIf x.group (done (ra 0x000 0x04C)) s
  let s := cfgStatus x.cfg 1 (pressEvent x s)
  let s := each x.hold (fun n s => pressRestart (Fin.ofNat 8 n) s) s
  let s := heldWrites x.pages s
  let s := onlyIf (decide (0x008 ∈ x.pages)) groupsDown s
  let s := each x.pages (fun p s =>
    if s.fget p pgPark = 3 ∧ (parkLane s p).isNone then becomeRunning p s
    else if s.fget p pgPark = 1 ∧ p = 0x008 then becomeParked p s else s) s
  lpHook s

/-- Whether a press has nothing more to wait for: no boundary, no output mode, and no group of a lane that it restarts (R33, R120, R485). -/
def pressDone (s : State) (x : PressRun) : Bool :=
  x.left.isEmpty && x.modes.isEmpty
    && x.hold.all (fun n => (s.hostsOf (Fin.ofNat 8 n)).all (fun (h : Host16) => decide (10 + h.val / 4 ∉ s.pwr.waitGood)))

/-- A press is replaced by its next record, or completes. -/
def pressNext (x y : PressRun) (s : State) : State :=
  let s := { s with presses := s.presses.map (fun z => if z.pages == x.pages then y else z) }
  if pressDone s y then pressComplete y s else s

/-- A line lane that a press restarts stands still until the press completes (R56, R173). -/
def holdLane (n : Lane) (s : State) : State := desyncShow n (showFill n (s.setLane n (fun l => { l with run := false })))

/-- One boundary of a press: the pages that apply there take force, with a changed map, whose pages are parked first, and a lane that restarts is stopped until the press completes (R148, R485; log entry 20). -/
def applyAt (n : Lane) (rx : Bool) (x : PressRun) (s : State) : State :=
  let ps := (x.left.filter (fun e => e.1 == n.val && e.2.1 == rx)).flatMap (fun e => e.2.2)
  let left := x.left.filter (fun e => !(e.1 == n.val && e.2.1 == rx))
  let s := each ps applyPage s
  let map := decide (n.val ∈ x.maps) && !rx
  let s := onlyIf map (fun s => mapApply n (mapPark n (s.hostsOf n) (holdLane n s))) s
  let again := decide (n.val ∈ x.maps) || decide (lfmP n ∈ x.pages) || decide (lrxP n ∈ x.pages)
  let restart := again && !left.any (fun e => e.1 == n.val) && (mapEn (s.mapOf n) || decide (n.val ∈ x.maps))
  let s := onlyIf restart (holdLane n) s
  pressNext x { x with left := left, hold := if restart then x.hold ++ [n.val] else x.hold } s

/-- A boundary of a line lane, in one direction, reaches every press that waits for it (R485). -/
def pressAt (n : Lane) (rx : Bool) (s : State) : State :=
  each (s.presses.filter (fun x => x.left.any (fun e => e.1 == n.val && e.2.1 == rx))) (applyAt n rx) s

/-- PRESS_APPLY (R484, R485). -/
def execPressApply (n : Lane) (rx : Bool) (s : State) : Host.Outcome State Fault Refusal := nxt (each (boundaryOf s n rx) (pressAt n) s)

/-- A line lane that stops running has no further boundary: what presses still hold for it applies at once (R374, R485). -/
def pressFlush (n : Lane) (s : State) : State := pressAt n true (pressAt n false s)

/-- Presses that waited for a group's power complete where nothing else holds them (R33). -/
def pressSettle (s : State) : State :=
  each s.presses (fun x s => if pressDone s x then pressComplete x s else s) s

/-- The boundary at which a page of a press applies; none for one that applies at once (R485). -/
def placeOf (s : State) (pages : List Nat) (p : Nat) : Option (Lane × Bool) :=
  let host (h : Host16) (rx : Bool) : Option (Lane × Bool) :=
    (((List.finRange 8).find? (fun (n : Lane) => decide (h ∈ mapHosts (mapAfter s pages n)))) <|> s.laneOf h).map
      (fun n => (n, rx && !mapChanges s pages n))
  match pageOf p with
  | some (.lfm, i) | some (.ltx, i) => some (Fin.ofNat 8 i, false)
  | some (.lrx, i) => some (Fin.ofNat 8 i, !mapChanges s pages (Fin.ofNat 8 i))
  | some (.hrx, i) => host (Fin.ofNat 16 i) false
  | some (.htx, i) => host (Fin.ofNat 16 i) true
  | _ => none

/-- A press that has passed validation: what applies at once applies, and the rest waits for its boundaries (R225, R375, R485); `cfg` are the host lanes whose CMIS configuration status it settles (R369). -/
def pressStart (group : Bool) (pages cfg : List Nat) (s : State) : State :=
  let maps := (List.finRange 8).filter (fun (n : Lane) => mapChanges s pages n)
  let modes := (List.finRange 8).filter (fun (n : Lane) => decide (ltxP n ∈ pages) && modeChanges s n)
  let ats := (List.finRange 8).flatMap (fun (n : Lane) => [false, true].filterMap (fun rx =>
    let ps := pages.filter (fun p => placeOf s pages p == some (n, rx))
    if ps.isEmpty && !(decide (n ∈ maps) && !rx) then none else some (n.val, rx, ps)))
  let now := pages.filter (fun p => (placeOf s pages p).isNone)
  let still := (List.finRange 8).filter (fun (n : Lane) => !s.running n)
  let s := each ((List.finRange 8).filter (fun (n : Lane) => restarts s pages n)) istAbort s
  let busy (a : Nat) (s : State) : State := s.wr a (setBits (s.rd a) 0 2 3)
  let s := each pages (fun p s => (busy (ra p 0x020) s).fset p pgPress 2) s
  let s := onlyIf group (busy (ra 0x000 0x04C)) s
  let x : PressRun := { group := group, pages := pages, left := ats, cfg := cfg, maps := maps.map (fun n => n.val), modes := modes.map (fun n => n.val) }
  let s := each now applyPage { s with presses := s.presses ++ [x] }
  let s := pressNext x x s
  each still pressFlush s

/-- A press of some pages: one already in a press fails with cause 8, and the checks of pressCheck and of R340 follow (R375). -/
def pressPages (group : Bool) (pages : List Nat) (s : State) : State :=
  match pages.find? (inPress s) with
  | some b => raise 1 8 (errInfo (if group then 0x000 else pages.headD 0) b 0 8 1 s)
  | none =>
    match pressCheck s pages with
    | some f => pressFailed group pages f s
    | none =>
      match paceFail s pages with
      | some n => pressFailed group pages (paceErr s pages n) (raise 36 n s)
      | none => pressStart group pages [] s

/-- PRESS (R375). -/
def execPress (p : BitVec 12) (s : State) : Host.Outcome State Fault Refusal :=
  nxt (if (pageOf p.toNat).isSome then pressPages false [p.toNat] s else s)

/-- The pages of the press group, each once (R376). -/
def groupPages (s : State) : List Nat :=
  (((List.range 16).map (fun g => s.rd (ra 0x000 (0x060 + 4 * g)))).filter (fun w => tb w 15)).map (fun w => w % 4096) |>.eraseDups

/-- A write of PRESS_GO; an empty group fails with cause 11 (R376). -/
def pressGoOp (s : State) : State :=
  let ps := groupPages s
  if ps.isEmpty then pressFailed true [] ⟨11, 0x000, 0x048⟩ s else pressPages true ps s

/-- PRESS_GO (R376). -/
def execPressGo (s : State) : Host.Outcome State Fault Refusal := nxt (pressGoOp s)

/-- DISCARD: the twins take the live values; while the page is in a press they hold the values pressed (R373, R377). -/
def discardOp (p : Nat) (s : State) : State :=
  if inPress s p then s
  else each (pageRws p) (fun x s => s.wr (x.1 + twin) (s.rd x.1 &&& x.2)) s

/-- DISCARD (R373). -/
def execDiscard (p : BitVec 12) (s : State) : Host.Outcome State Fault Refusal := nxt (discardOp p.toNat s)

/-- OUT_MODE_SWITCH_DONE: the new mode is enabled with AMP at code 0, ramping to its stored value, and the press is done (R120, R121). -/
def execOutModeSwitchDone (n : Lane) (s : State) : Host.Outcome State Fault Refusal :=
  match s.lanes[n].modeSwitch with
  | none => nxt s
  | some m =>
    let a := ra (ltxP n) 0x048
    let s := s.setLane n (fun l => { l with modeSwitch := none, modeNamed := true })
    let s := { ((s.fset (ltxP n) ltxOut m).setFlag (ltxP n) ltxComply false).setForce a 0 with target := kput (resetWord a) s.target a (BitVec.ofNat 32 (s.rd a)) }
    let s := s.setFlag (ltxP n) (rampBit (ltxP n)) (rampTo s a != 0)
    nxt (each (s.presses.filter (fun x => decide (n.val ∈ x.modes)))
      (fun x s => pressNext x { x with modes := x.modes.filter (fun k => k != n.val) } s) s)

/-- Every press is dropped without a result: thermal shutdown and resets end it (R359). -/
def pressDropAll (s : State) : State :=
  let ps := s.presses.flatMap (fun x => x.pages)
  let s := cfgStatus (s.presses.flatMap (fun x => x.cfg)) 2 s
  let s := { s with presses := [], twinHeld := [] }
  each ps (fun p s => s.fset p pgPress 0) s

end Sys2Proof.Machine
end

