-- ==== Sys2Proof/Machine/Power.lean ====
section
/-! DEFINITION. Power: dusk and waking of line lanes, requests of the low-power state and wake sources, pace, VCORE and its moves over AVSBus, and the power-good of domains (R31 to R33, R321 to R345). Steps 4 to 6 of the entry and the wake-walk are in Machine/LowPower.lean. -/

namespace Sys2Proof.Machine

/-! Roundings -/

/-- A quotient whose rounding the spec leaves open: the floor, or one more where the division is not exact (log entry 23). -/
def openRound (k : Nat) (num : Int) (den : Nat) : Int :=
  num / (den : Int) + (if num % (den : Int) = 0 then 0 else Config.openChoice k num % 2)

/-! VCORE -/

/-- The register that publishes the margins of lane n. -/
def paceReg (n : Nat) : Nat := ra pwrP (0x080 + 4 * n)

/-- The margins of the running lanes in one window: lane, direction, capability and symbol rate (R334). -/
def paceList (s : State) (caps : List (Nat × Nat)) : List (Nat × Bool × Nat × Nat) :=
  ((List.finRange 8).filter (fun n => s.running n)).flatMap (fun (n : Lane) =>
    let c := nth (0, 0) caps n
    [(n.val, false, c.1, laneRate s n), (n.val, true, c.2, laneRate s n)])

/-- The entry of lowest margin, the first where margins are equal (R337). -/
def paceMin : List (Nat × Bool × Nat × Nat) → Option (Nat × Bool × Nat × Nat)
  | [] => none
  | x :: r =>
    match paceMin r with
    | none => some x
    | some y => if y.2.2.1 * x.2.2.2 < x.2.2.1 * y.2.2.2 then some y else some x

/-- PACE_CHECK: the margins of a short window against the floor (R337); the raise for a lane that waits in Waking goes on (R325). -/
def execPaceCheck (caps : List (Nat × Nat)) (s : State) : Host.Outcome State Fault Refusal :=
  let l := paceList s caps
  let low := l.any (fun e => !marginOk s e.2.2.1 1 e.2.2.2)
  if !low then
    let s := { s with pwr := { s.pwr with episode := false } }
    nxt (if (List.finRange 8).any (wakeShort s) then wakeRaise s else s.setFlag pwrP vcoreRaise false)
  else
    match paceMin l with
    | none => nxt s
    | some m =>
      let s := if s.pwr.episode then s
        else raise 37 (m.1 + 8 * bit m.2.1) { s with pwr := { s.pwr with episode := true, limited := false } }
      nxt (hwRaise s)

/-- A margin in 0.01 %, as its 16-bit field holds it (R334, R346). -/
def marginCode (cap rate : Nat) : Nat := enc2 16 (clampI (-32768) 32767 (openRound 10 (((cap * 512 : Nat) : Int) * 10000 - (rate : Int) * 10000) rate))

/-- A completed full window: margins, the lowest of them, and the capabilities; it sets CONFIRMED where no write is under way and no fault of AVSBus stands (R334, R335, R341, R344). -/
def execConfirmedSet (caps : List (Nat × Nat)) (rep : Nat) (s : State) : Host.Outcome State Fault Refusal :=
  let l := paceList s caps
  let s := each l (fun e s => let f : Fld := ⟨0x080 + 4 * e.1, if e.2.1 then 16 else 0, 16⟩; s.fset pwrP f (marginCode e.2.2.1 e.2.2.2)) s
  let s := match paceMin l with
    | some m => s.wr (ra pwrP 0x074) (marginCode m.2.2.1 m.2.2.2 + m.1 * 65536 + bit m.2.1 * 2 ^ 19)
    | none => s.wr (ra pwrP 0x074) 0x7FFF
  let s := { s with pwr := { s.pwr with
    cLane := ((List.finRange 8).filter (fun n => s.running n)).foldl (fun (m : KMap Nat) (n : Lane) => let c := nth (0, 0) caps n; kput 0 m n (min c.1 c.2)) s.pwr.cLane,
    cRep := rep } }
  let f (x : Nat) : Nat := clampN 0 65535 (openRound 11 (x : Int) 100000).toNat
  let s := s.wr (ra pwrP 0x070) (f (cConf s) + 65536 * f rep)
  nxt (if s.flag pwrP vcoreSlew || s.flag pwrP vcoreErr || s.pwr.avsWhole.isSome then s else s.setFlag pwrP vcoreConf true)

/-- A write of VCORE_REQ: a raise is accepted, a lowering only where R339 allows it, else event 35 names the code (R338, R339). -/
def vcoreReqOp (code : Nat) (s : State) : State :=
  let c := min code 40
  let t := s.fget pwrP vcoreReq
  if c = t then s
  else if t < c then targetSet c s
  else if lowerOk s c then targetSet c s
  else raise 35 c s

/-- VCORE_REQ_WRITE (R339). -/
def execVcoreReqWrite (code : BitVec 6) (s : State) : Host.Outcome State Fault Refusal := nxt (vcoreReqOp code.toNat s)

/-- AVS_CFG.AVS_EN (R346). -/
def avsEn : Fld := ⟨0x078, 6, 1⟩

/-- AVS_WRITE_DONE: a voltage frame ends; a success sends the next code of a move or ends it, and a third failure raises event 39; thermal shutdown makes its one write and no other (R343, R344, R357). -/
def execAvsWriteDone (result : Fin 4) (readMv : Option Nat) (s : State) : Host.Outcome State Fault Refusal :=
  let t := s.fget pwrP vcoreReq
  let sent := s.fget pwrP vcoreSent
  let next := match s.pwr.avsWhole with
    | some c => some c
    | none => if sent < t then some (sent + 1) else if t < sent then some (sent - 1) else none
  match next with
  | none => nxt s
  | some c =>
    if !s.flag pwrP avsEn then nxt s
    else if s.shut then
      let done := { s with pwr := { s.pwr with avsWhole := none } }
      nxt (if s.pwr.avsWhole.isNone then s else if result = 0 then (done.fset pwrP vcoreSent c).setFlag pwrP vcoreSlew (c != t) else done)
    else if result = 0 then
      let s := { s with pwr := { s.pwr with avsFails := 0, avsWhole := none } }
      let s := ((s.fset pwrP vcoreSent c).setFlag pwrP vcoreErr false).setFlag pwrP vcoreConf false
      let s := s.setFlag pwrP vcoreSlew (c != t)
      nxt (match readMv with
        | some v => if c = t then s.fset pwrP ⟨0x064, 16, 16⟩ v else s
        | none => s)
    else if s.pwr.avsFails < 2 then nxt { s with pwr := { s.pwr with avsFails := s.pwr.avsFails + 1 } }
    else
      nxt (raise 39 result.val (({ s with pwr := { s.pwr with avsFails := 0 } }.setFlag pwrP vcoreErr true).setFlag pwrP vcoreConf false))

/-! Dusk -/

/-- PWR.LANE_IDLE_T.IDLE_T. -/
def idleT : Fld := ⟨0x04C, 0, 16⟩

/-- LANE_DUSK_ENTRY: a running lane whose LOS has lasted IDLE_T enters dusk; no page of it is parked, it is in no foreground calibration, and IDLE_T is not 0; a press that waited for its boundaries then applies (R32, R105, R121, R321, R324). -/
def execLaneDuskEntry (n : Lane) (s : State) : Host.Outcome State Fault Refusal :=
  if s.running n && s.flag (lrxP n) lrxLos && s.fget pwrP idleT != 0 && !s.cal[n].fg && s.fget pwrP pwrState == 0
      && [lrxP n, ltxP n, lfmP n].all (fun p => s.fget p pgPark == 0) then
    let s := s.setFlag pwrP (pwrDusk n) true
    let s := { s with pwr := { s.pwr with subOn := s.pwr.subOn &&& ~~~(BitVec.ofNat 8 (2 ^ n.val)) } }
    let s := each [lrxP n, ltxP n, lfmP n] (fun p s => s.fset p ⟨0x004, 0, 3⟩ 1) s
    let s := (s.fset (lfmP n) lfmFstate 3).fset (lrxP n) lrxDec 3
    let s := desyncShow n (showFill n (gradDrop n (s.wr (paceReg n) 0x7FFF7FFF)))
    nxt (pressFlush n (raise (evLane n 19) 0 (calCheck n (wmkCut n (wmkRxOff n (latSpoil n s))))))
  else nxt s

/-- The subdomain of D_CORE and the rest of D_LANEn of a lane that leaves dusk are powered, and wait for power-good (R322, R325). -/
def lanePower (n : Lane) (s : State) : State :=
  let ds := [16 + n.val, 2 + n.val].filter (fun d => decide (d ∉ s.pwr.faults ∧ d ∉ s.pwr.waitGood))
  if s.pwr.subOn.getLsbD n then s else { s with pwr := { s.pwr with waitGood := s.pwr.waitGood ++ ds } }

/-- A lane in dusk enters Waking with the cause of event 34; its demand is checked at once, and where that passes it is powered (R325). -/
def wakeLane (n : Lane) (cause : Nat) (s : State) : State :=
  if s.flag pwrP (pwrDusk n) then
    let s := (s.setFlag pwrP (pwrDusk n) false).setFlag pwrP (pwrWaking n) true
    let s := each [lrxP n, ltxP n, lfmP n] (fun p s => s.fset p ⟨0x004, 0, 3⟩ 0) s
    let (ok, s) := demandCheck n (s.setLane n (fun l => { l with wakeCause := cause }))
    onlyIf ok (lanePower n) s
  else s

/-- SIGNAL_DETECT_WAKE (R325). -/
def execSignalDetectWake (n : Lane) (s : State) : Host.Outcome State Fault Refusal := nxt (wakeLane n 0 s)

/-- A write of DUSK_CTRL.EXIT (R325). -/
def duskExitOp (mask : Nat) (s : State) : State := each ((List.finRange 8).filter (fun (n : Lane) => tb mask n)) (fun n s => wakeLane n 3 s) s

/-- DUSK_EXIT (R325). -/
def execDuskExit (mask : Byte) (s : State) : Host.Outcome State Fault Refusal := nxt (duskExitOp mask.toNat s)

/-- LANE_WAKING_DONE: a lane whose demand check does not pass waits on; one that has been powered restarts with event 34, or without it at its activation; one whose check had failed until now is powered first, and one whose domain has faulted stays as it is (R322, R325, R454; log entry 80). -/
def execLaneWakingDone (n : Lane) (s : State) : Host.Outcome State Fault Refusal :=
  nxt (if !s.flag pwrP (pwrWaking n) then s
  else if (demandFail s (withLane s n)).isSome then wakeRaise s
  else if 2 + n.val ∈ s.pwr.faults ∨ 16 + n.val ∈ s.pwr.faults then s
  else if !s.pwr.subOn.getLsbD n && decide (16 + n.val ∉ s.pwr.waitGood ∧ 2 + n.val ∉ s.pwr.waitGood) then lanePower n s
  else if s.lanes[n].wakeCause = activation then startLane n (duskClear n s)
  else leaveDusk n s.lanes[n].wakeCause s)

/-! Low-power requests and wake sources -/

/-- LPMODE is asserted and honoured (R371). -/
def lpPin (s : State) : Bool := s.mgmt.lpmode && (cmisByte s 26).getLsbD 6

/-- PWR_CTRL.LP_REQ (R346). -/
def lpReqF : Fld := ⟨0x040, 1, 1⟩

/-- R327 holds the device in low power: LPMODE asserted and honoured, or LP_REQ = 1. -/
def lpHeld (s : State) : Bool := lpPin s || s.flag pwrP lpReqF

/-- The entry to low power begins, where the device is Active with management ready (R327, R328). -/
def lpEnter (cause : Nat) (s : State) : State :=
  if s.fget pwrP pwrState = 0 ∧ s.boot.ready = true ∧ s.pwr.coreOn = true ∧ s.shut = false then
    lpHook (stateChanged ({ s with pwr := { s.pwr with lpCause := cause, wakePend := none } }.fset pwrP pwrState 1))
  else s

/-- The state asks for low power in its own right: the pin before LP_REQ (R327). -/
def lpAsk (s : State) : State :=
  if lpPin s then lpEnter 1 s else if s.flag pwrP lpReqF then lpEnter 2 s else s

/-- Wake begins: the source is recorded, VCORE code 30 is written whole, and D_CORE with its subdomains, the D_LANE domains and the D_HOST domains of mapped lanes are powered (R329, R330, R322; log entry 79). -/
def wakeStart (code lane : Nat) (s : State) : State :=
  let s := (s.fset pwrP ⟨0x048, 0, 3⟩ code).fset pwrP ⟨0x048, 4, 3⟩ lane
  let s := stateChanged (targetSet 30 (s.fset pwrP pwrState 3))
  let lanes := List.range' 2 8 ++ List.range' 16 8 ++ List.range' 24 5
  let groups := ((List.range 4).filter (groupUsed s)).map (fun k => 10 + k)
  let need := (lanes ++ groups).filter (fun d => decide (d ∉ s.pwr.faults))
  { s with pwr := { s.pwr with avsWhole := some 30, avsFails := 0, wakePend := none, waitGood := 1 :: need } }

/-- A wake source: during the entry it is kept, the lowest code first, and in low power it wakes the device where R327 does not hold it (R328, R329). -/
def wakeSource (code lane : Nat) (s : State) : State :=
  if lpHeld s then s
  else if s.fget pwrP pwrState = 1 then
    match s.pwr.wakePend with
    | some (c, _) => if code < c then { s with pwr := { s.pwr with wakePend := some (code, lane) } } else s
    | none => { s with pwr := { s.pwr with wakePend := some (code, lane) } }
  else if s.fget pwrP pwrState = 2 then wakeStart code lane s
  else s

/-- A write of PWR_CTRL.LP_REQ (R327, R329). -/
def lpReqOp (req : Bool) (s : State) : State :=
  let s := s.setFlag pwrP lpReqF req
  if req then lpEnter 2 s else wakeSource 2 0 s

/-- LP_REQ_WRITE (R327). -/
def execLpReqWrite (req : Bool) (s : State) : Host.Outcome State Fault Refusal := nxt (lpReqOp req s)

/-- LPMODE_CHANGE (R327, R329, R346). -/
def execLpmodeChange (high : Bool) (s : State) : Host.Outcome State Fault Refusal :=
  let s := { s with mgmt := { s.mgmt with lpmode := high } }.setFlag pwrP ⟨0x058, 2, 1⟩ high
  nxt (if high then (if lpPin s then lpEnter 1 s else s) else wakeSource 1 0 s)

/-- DEVICE_IDLE_EXPIRY: with AUTO_LP, every enabled lane, of which there is one at least, has been in dusk for DEV_IDLE_T (R327). -/
def execDeviceIdleExpiry (s : State) : Host.Outcome State Fault Refusal :=
  let on := (List.finRange 8).filter (fun n => mapEn (s.mapOf n))
  nxt (if s.flag pwrP ⟨0x040, 0, 1⟩ && !on.isEmpty && on.all (fun n => s.flag pwrP (pwrDusk n)) then lpEnter 3 s else s)

/-- A write of 1 to PWR_CTRL.WAKE, which acts where WAKE_EN bit 0 is set (R329). -/
def pwrWakeOp (s : State) : State := if tb (s.rd (ra pwrP 0x044)) 0 then wakeSource 2 0 s else s

/-- PWR_WAKE_WRITE (R329). -/
def execPwrWakeWrite (s : State) : Host.Outcome State Fault Refusal := nxt (pwrWakeOp s)

/-- WAKE_TIMER_EXPIRY: the timer counts from the end of the entry (R329). -/
def execWakeTimerExpiry (s : State) : Host.Outcome State Fault Refusal :=
  nxt (if tb (s.rd (ra pwrP 0x044)) 3 && s.rd (ra pwrP 0x054) != 0 && s.fget pwrP pwrState == 2 then wakeSource 5 0 s else s)

/-- Signal-detect wake is enabled for line lane n (R329). -/
def sdEnabled (s : State) (n : Nat) : Bool := tb (s.rd (ra pwrP 0x044)) 2 && tb (s.rd (ra pwrP 0x044)) (16 + n)

/-- LP_SIGNAL_DETECT, on a lane whose detector low power has kept (R32, R329). -/
def execLpSignalDetect (n : Lane) (s : State) : Host.Outcome State Fault Refusal :=
  nxt (if sdEnabled s n && (s.fget pwrP pwrState == 1 || s.pwr.sdKept.getLsbD n) then wakeSource 4 n s else s)

/-! Domains -/

/-- The pages whose blocks a domain of event 40 holds (R31, R322, R323). -/
def domainPages (d : Nat) : List Nat :=
  if d = 0 then (List.range 0x80).filter (fun p => match pageOf p with | some (k, _) => k.inHk | none => false)
  else if d = 1 then (List.range 0x80).filter (fun p => match pageOf p with | some (k, _) => !k.inHk && !k.inAon | none => false)
  else if d < 10 then [lrxP (d - 2), ltxP (d - 2)]
  else if d < 14 then (List.range 4).flatMap (fun i => [hrxP (4 * (d - 10) + i), htxP (4 * (d - 10) + i)])
  else if 16 ≤ d ∧ d < 24 then [lrxP (d - 16), ltxP (d - 16), lfmP (d - 16)]
  else if 24 ≤ d ∧ d < 29 then [engP (d - 24)]
  else []

/-- A domain stays clamped: its blocks are UNUSABLE and event 40 names it; D_CORE held means ModuleFault (R322, R450). -/
def domainFault (d : Nat) (s : State) : State :=
  let s := { s with pwr := { s.pwr with
    waitGood := s.pwr.waitGood.filter (fun x => x != d), faults := if d ∈ s.pwr.faults then s.pwr.faults else d :: s.pwr.faults,
    coreHeld := s.pwr.coreHeld || d == 1 } }
  raise 40 d (each (List.finRange 8) wmkRxBad (each (domainPages d) markBad s))

/-- PWR_DOMAIN_FAULT: power-good has not come within 1 ms (R322). -/
def execPwrDomainFault (d : Fin 32) (s : State) : Host.Outcome State Fault Refusal :=
  nxt (if d.val ∈ s.pwr.waitGood then pressSettle (domainFault d s) else s)

/-- A domain is on; with D_HK the converters' output grid begins (R31, R261). -/
def domainOn (d : Nat) (s : State) : State :=
  let p := { s.pwr with waitGood := s.pwr.waitGood.filter (fun x => x != d) }
  let p : PwrSt :=
    if d = 0 then { p with hkOn := true }
    else if d = 1 then { p with coreOn := true }
    else if 2 ≤ d ∧ d < 10 then { p with laneOn := p.laneOn ||| BitVec.ofNat 8 (2 ^ (d - 2)) }
    else if 16 ≤ d ∧ d < 24 then { p with subOn := p.subOn ||| BitVec.ofNat 8 (2 ^ (d - 16)) }
    else if 10 ≤ d ∧ d < 14 then { p with hostOn := p.hostOn ||| BitVec.ofNat 4 (2 ^ (d - 10)) }
    else p
  let s := if d = 0 ∧ s.pwr.hkOn = false then { s with adac := { s.adac with gridAt := s.cycles } } else s
  xbarShow { s with pwr := p }

/-- POWER_GOOD: the domain's logic is reset, its clamps are released, and a press that waited for it goes on (R33, R322). -/
def execPowerGood (d : Fin 32) (s : State) : Host.Outcome State Fault Refusal :=
  nxt (if d.val ∈ s.pwr.waitGood then pressSettle (domainOn d s) else s)

end Sys2Proof.Machine
end

