-- ==== Sys2Proof/Machine/Wmk.lean ====
section
/-! DEFINITION. The watermark modem: frames and their symbols, sending and its queue, reception, receive slots, and the CAP and LAT frames (R277 to R287). READ_REQ and WRITE_REQ are served in Machine/Mgmt.lean. -/

namespace Sys2Proof.Machine

/-! Frames -/

/-- A CRC of `w` bits over bits, first to last, with polynomial `p` and register `c` (R278). -/
def crcBits (w p : Nat) (c : Nat) (l : List Bool) : Nat :=
  l.foldl (fun c b => let c2 := (c * 2) % 2 ^ w; if xor (tb c (w - 1)) b then c2 ^^^ p else c2) c

/-- The bits of bytes in order, each byte MSB first (R277). -/
def byteBits (l : List Byte) : List Bool := l.flatMap (fun b => msbFirst 8 b.toNat)

/-- The header CRC (R278). -/
def wmkHdrCrc (h : Nat) : Nat := crcBits 16 0x1021 0xFFFF (msbFirst 32 h)

/-- The payload CRC, which the retention seals use as well (R278, R331). -/
def crc32 (l : List Byte) : Nat := crcBits 32 0x04C11DB7 0xFFFFFFFF (byteBits l) ^^^ 0xFFFFFFFF

/-- The two symbols that the encoder sends for the bit that leads from a state, whose register `v` is the bit and the state (R277). -/
def convOut (v : Nat) : Bool × Bool :=
  let par (m : Nat) : Bool := ((List.range 7).filter (fun i => tb (v &&& m) i)).length % 2 == 1
  (par 0o171, par 0o133)

/-- The rate-1/2 encoder of constraint length 7, generators 171 and 133 octal, from a state of the last six bits, the newest most significant (R277; log entry 26). -/
def convEnc : Nat → List Bool → List Bool
  | _, [] => []
  | s, u :: r =>
    let v := bit u * 64 + s
    let o := convOut v
    o.1 :: o.2 :: convEnc (v / 2) r

/-- The header of a frame that lane n sends (R278). -/
def wmkHeader (n : Lane) (f : WmkFrame) : Nat :=
  f.typ % 16 * 2 ^ 28 + (f.payload.length - 1) % 256 * 2 ^ 20 + f.seq % 256 * 2 ^ 12 + n.val * 2 ^ 9

/-- The symbols of a frame, true being +1 (R277). -/
def wmkSymbols (n : Lane) (f : WmkFrame) : List Bool :=
  let h := wmkHeader n f
  (List.range 64).map (fun i => i % 2 == 0) ++ msbFirst 32 0x3B5DE4A7
    ++ convEnc 0 (msbFirst 32 h ++ msbFirst 16 (wmkHdrCrc h) ++ byteBits f.payload ++ msbFirst 32 (crc32 f.payload) ++ List.replicate 6 false)

/-! Sending -/

/-- TX_CTRL.REFUSED (R295). -/
def wmkRefused : Fld := ⟨0x054, 2, 1⟩
/-- TX_CTRL.SEQ. -/
def wmkSeq : Fld := ⟨0x054, 8, 8⟩

/-- Star-map counters of WMKn in the order of R295 (R407). -/
def cWmk (n : Lane) (j : Nat) : Nat := cLane n (0x040 + j)

/-- A frame joins the queue (R287). -/
def wmkQueue (n : Lane) (f : WmkFrame) (s : State) : State := s.setWmk n (fun w => { w with queue := w.queue ++ [f] })

/-- A CAP or LAT frame replaces one still waiting, and takes the next SEQ (R278, R287). -/
def wmkPeriodic (n : Lane) (cls typ : Nat) (payload : List Byte) (s : State) : State :=
  let q := s.wmk[n].seq
  let s := s.setWmk n (fun w => { w with seq := (w.seq + 1) % 256, queue := w.queue.filter (fun f => f.cls != cls) })
  wmkQueue n { cls := cls, typ := typ, seq := q, payload := payload } s

/-- The payload that the transmit buffer holds (R283). -/
def txPayload (s : State) (n : Lane) : List Byte :=
  let len := s.fget (wmkP n) ⟨0x050, 4, 8⟩ + 1
  (((List.range 64).flatMap (fun i => bytesLE 4 (kget 0 s.wmk[n].txBuf i).toNat))).take len

/-- A write of TX_CTRL.SEND: the frame takes the next SEQ, or is refused while BUSY, without TX_EN in force, or under HOLD (R283). -/
def wmkSendOp (n : Lane) (s : State) : State :=
  if s.flag (wmkP n) wmkBusy || s.ffget (wmkP n) wmkTxEn != 1 || s.flag (wmkP n) wmkHold then s.setFlag (wmkP n) wmkRefused true
  else
    let q := s.wmk[n].seq
    let f : WmkFrame := { cls := 1, typ := s.fget (wmkP n) ⟨0x050, 0, 4⟩, seq := q, payload := txPayload s n }
    let s := s.setWmk n (fun w => { w with seq := (w.seq + 1) % 256 })
    let s := ((s.setFlag (wmkP n) wmkBusy true).setFlag (wmkP n) wmkRefused false).fset (wmkP n) wmkSeq q
    wmkQueue n f s

/-- WMK_SEND (R283). -/
def execWmkSend (n : Lane) (s : State) : Host.Outcome State Fault Refusal := nxt (wmkSendOp n s)

/-- The frame sent next: the first of the lowest class; under HOLD only responses (R287). -/
def wmkNext (s : State) (n : Lane) : Option WmkFrame :=
  let q := if s.flag (wmkP n) wmkHold then s.wmk[n].queue.filter (fun f => f.cls == 0) else s.wmk[n].queue
  [0, 1, 2, 3].findSome? (fun c => q.find? (fun f => f.cls == c))

/-- WMK_FRAME_START: no frame and no flare being sent, the overlay on; the frame begins at the end of the next idle symbol of value −1 (R276, R287, R289). -/
def execWmkFrameStart (n : Lane) (s : State) : Host.Outcome State Fault Refusal :=
  let w := s.wmk[n]
  if w.sending.isSome || w.flareOn || w.flareWait || s.ffget (wmkP n) wmkTxEn != 1 || !s.running n then nxt s
  else
    match wmkNext s n with
    | none => nxt s
    | some f =>
      let i := wmkIndex s n w.pos
      let base := i / 2 * 2 + 2
      nxt ((s.setWmk n (fun w => { w with sending := some f, queue := w.queue.erase f, lastBase := w.base, lastSyms := w.syms, base := base, syms := wmkSymbols n f })).setFlag (wmkP n) wmkInTx true)

/-- WMK_FRAME_SENT: the last symbol has left; BUSY clears and DONE is set for a host frame, and a flare that waited begins (R283, R289). -/
def execWmkFrameSent (n : Lane) (s : State) : Host.Outcome State Fault Refusal :=
  match s.wmk[n].sending with
  | none => nxt s
  | some f =>
    let s := s.setWmk n (fun w => { w with sending := none, lastBase := w.base, lastSyms := w.syms, syms := [], doneNew := w.doneNew || f.cls == 1 })
    let s := s.setFlag (wmkP n) wmkInTx false
    let s := onlyIf (f.cls == 1) (fun s => s.setFlag (wmkP n) wmkBusy false) s
    nxt (flareGo n (addCtr (cWmk n 0) 1 s))

/-- A read of TX_CTRL: DONE reads 1 on the first read after the frame has gone (R283). -/
def txCtrlRead (n : Lane) (s : State) : State :=
  (s.fset (wmkP n) ⟨0x054, 3, 1⟩ (bit s.wmk[n].doneNew)).setWmk n (fun w => { w with doneNew := false })

/-! Capability and latency frames -/

/-- The CAP payload (R285). -/
def capPayload (s : State) (n : Lane) : List Byte :=
  let c := s.rd (ra (wmkP n) 0x040)
  let b3 := bits c 7 1 + 2 * bits c 8 1 + 4 * bits c 10 1 + 8 * s.fget (wmkP n) ⟨0x090, 9, 1⟩
  [1, 0x32, n.val, b3, s.coding n + 4 * s.rate n, bit (s.free n), 0, 0].map (BitVec.ofNat 8)

/-- A CAP frame is queued where AUTO_CAP = 1 (R285). -/
def capQueue (n : Lane) (s : State) : State :=
  if tb (s.rd (ra (wmkP n) 0x040)) 9 then wmkPeriodic n 3 5 (capPayload s n) s else s

/-- CAP_TIMER (R285). -/
def execCapTimer (n : Lane) (s : State) : Host.Outcome State Fault Refusal := nxt (capQueue n s)

/-- The LAT payload: the last valid windows of the lane, none while LAT_CTRL.EN = 0 (R169, R286). -/
def latPayload (s : State) (n : Lane) : List Byte :=
  let on := tb (s.rd (ra 0x00D 0x040)) 0
  let two := s.rate n == 0
  let w := s.wmk[n].lat
  let ok (i : Nat) : Bool := on && kget 0 w (30 + i) == 1
  let v (i : Nat) : Nat := if ok i then kget 0 w i % 2 ^ 32 else 0
  let be (x : Nat) : List Byte := (bytesLE 4 x).reverse
  let txOk := ok 0 && (!two || ok 1)
  be (v 0) ++ be (if two then v 1 else 0) ++ be (v 2)
    ++ [bit txOk + 2 * bit (ok 2) + 4 * bit (s.free n), s.fget 0x00D latWinF, 0, 0].map (BitVec.ofNat 8)

/-- LAT_TIMER: a LAT frame is queued where AUTO_LAT = 1 (R286). -/
def execLatTimer (n : Lane) (s : State) : Host.Outcome State Fault Refusal :=
  nxt (if tb (s.rd (ra (wmkP n) 0x040)) 10 then wmkPeriodic n 2 6 (latPayload s n) s else s)

/-! Lock -/

/-- Whether the demodulator of a lane runs (R280). -/
def demodOn (s : State) (n : Lane) : Bool := s.running n && !s.cal[n].fg && !s.bad (lrxP n) && tb (s.rd (ra (wmkP n) 0x040)) 6

/-- WMK_LOCK: LOCK and the peak, and a CAP frame at the rise (R280, R285, R295). -/
def execWmkLock (n : Lane) (peak : BitVec 12) (s : State) : Host.Outcome State Fault Refusal :=
  nxt (if demodOn s n then
    let was := s.flag (wmkP n) wmkLockF
    let s := (s.setFlag (wmkP n) wmkLockF true).fset (wmkP n) ⟨0x04C, 16, 12⟩ peak.toNat
    if was then s else capQueue n s
  else s)

/-- WMK_LOCK_LOSS (R280). -/
def execWmkLockLoss (n : Lane) (s : State) : Host.Outcome State Fault Refusal := nxt (wmkRxOff n s)

/-! Reception -/

/-- The pairs of neighbours of a list. -/
def pairs {α : Type} : List α → List (α × α)
  | x :: y :: r => (x, y) :: pairs r
  | _ => []

/-- `convOut` of all 128 registers. -/
def convTable : List (Bool × Bool) := (List.range 128).map convOut

/-- The differences of two received symbols from two sent. -/
def symDist (a b : Bool) (o : Bool × Bool) : Nat := bit (xor a o.1) + bit (xor b o.2)

/-- The survivors into the 32 states whose newest bit is `u`: of the paths from each pair of states the one with the smaller metric, the even state's on a tie; a path holds its last 36 bits, the newest lowest (R281; log entry 26). -/
def vitHalf (u : Nat) (a b : Bool) (outs : List ((Bool × Bool) × (Bool × Bool))) (ps : List ((Nat × Nat) × (Nat × Nat))) : List (Nat × Nat) :=
  (ps.zip outs).map (fun x =>
    let m0 := x.1.1.1 + symDist a b x.2.1
    let m1 := x.1.2.1 + symDist a b x.2.2
    let best := if m1 < m0 then (m1, x.1.2.2) else (m0, x.1.1.2)
    (best.1, (2 * best.2 + u) % 2 ^ 36))

/-- One step of the Viterbi decoder: metrics and paths of the 64 states, in order, after two received symbols (R281). -/
def vitStep (a b : Bool) (p : List (Nat × Nat)) : List (Nat × Nat) :=
  let ps := pairs p
  let outs := pairs convTable
  vitHalf 0 a b outs ps ++ vitHalf 1 a b (outs.drop 32) ps

/-- The path of the smallest metric, of the lowest state on a tie. -/
def vitBest (p : List (Nat × Nat)) : Nat :=
  (p.foldl (fun (a b : Nat × Nat) => if b.1 < a.1 then b else a) (p.headD (0, 0))).2

/-- The decisions of the decoder over received symbols, each made 35 bits after its own; `k` bits have gone before (R281). -/
def vitRun : Nat → List (Nat × Nat) → List Bool → List Bool
  | k, p, a :: b :: r =>
    let p := vitStep a b p
    if k < 35 then vitRun (k + 1) p r else tb (vitBest p) 35 :: vitRun (k + 1) p r
  | _, _, _ => []

/-- The bits that the decoder decides from a frame's symbols after its sync, the encoder having started in state 0 (R277, R281). -/
def viterbi (l : List Bool) : List Bool := vitRun 0 ((0, 0) :: List.replicate 63 (1000, 0)) l

/-- How the reception of a frame ends (R281): a sync met before its header was known, a header or payload CRC that fails, a TYPE that is none, or a frame handed on. -/
inductive RxEnd where
  | falseSync | hdrErr | typeErr | crcErr
  | frame (f : WmkSlot)
  deriving DecidableEq, Repr

/-- TYPE of a received header (R278). -/
def rxTyp (f : WmkSlot) : Nat := bits f.hdr.toNat 28 4

/-- The symbols of a frame after its sync, by its header (R277). -/
def rxLen (h : BitVec 32) : Nat := 172 + 16 * (bits h.toNat 20 8 + 1)

/-- The sync word is seen: the last 32 symbols differ from it in no more than TOL positions (R281). -/
def syncSeen (tol reg : Nat) : Bool := decide (((List.range 32).filter (fun i => tb (reg ^^^ 0x3B5DE4A7) i)).length ≤ tol)

/-- The end of a frame whose header is known, from its symbols after the sync, newest first: its payload through the payload CRC (R278, R281). -/
def rxPayload (h : BitVec 32) (l : List Bool) : RxEnd :=
  let d := (viterbi l.reverse).drop 48
  let n := bits h.toNat 20 8 + 1
  let p : List Byte := (chunk 8 n d).map (fun b => BitVec.ofNat 8 (ofMsb b))
  if crc32 p = ofMsb ((d.drop (8 * n)).take 32) then .frame { hdr := h, payload := p } else .crcErr

/-- The header of a frame from its first 166 symbols after the sync, newest first; none where its CRC fails (R278, R281). -/
def rxHeader (l : List Bool) : Option (BitVec 32) :=
  let d := viterbi l.reverse
  let h := ofMsb (d.take 32)
  if wmkHdrCrc h = ofMsb ((d.drop 32).take 16) then some (BitVec.ofNat 32 h) else none

/-- One symbol of the last 70, which the decoder needs behind a frame's last (R281). -/
def rxTail (b : Bool) (x : WmkRx) : WmkRx × List RxEnd :=
  match x.tail with
  | none => (x, [])
  | some (h, k, l) => if k ≤ 1 then ({ x with tail := none }, [rxPayload h (b :: l)]) else ({ x with tail := some (h, k - 1, b :: l) }, [])

/-- One symbol of the frame in reception: a new sync before its header is known, the header's CRC and TYPE, its last symbol (R279, R281). A frame of no TYPE keeps the correlator from matching until its last symbol, as any other (log entry 26). -/
def rxSym (seen b : Bool) (x : WmkRx) : WmkRx × List RxEnd :=
  match x.syms, x.hdr with
  | none, _ => (if seen then { x with syms := some (0, []) } else x, [])
  | some (k, l), none =>
    if k + 1 = 166 then
      match rxHeader (b :: l) with
      | none => (if seen then { x with syms := some (0, []) } else { x with syms := none }, [.hdrErr])
      | some h => ({ x with syms := some (k + 1, b :: l), hdr := some h }, if rxTyp { hdr := h, payload := [] } = 0 ∨ 7 < rxTyp { hdr := h, payload := [] } then [.typeErr] else [])
    else if seen then ({ x with syms := some (0, []) }, [.falseSync])
    else ({ x with syms := some (k + 1, b :: l) }, [])
  | some (k, l), some h =>
    if k + 1 = rxLen h then
      let none_ := decide (rxTyp { hdr := h, payload := [] } = 0 ∨ 7 < rxTyp { hdr := h, payload := [] })
      ({ x with syms := none, hdr := none, tail := if none_ then x.tail else some (h, 70, b :: l) }, [])
    else ({ x with syms := some (k + 1, b :: l) }, [])

/-- The correlator and the decoder over received symbols: what they hold after them, and how receptions ended (R281). -/
def rxScan (tol : Nat) : List Bool → WmkRx → WmkRx × List RxEnd
  | [], x => (x, [])
  | b :: r, x =>
    let x := { x with reg := (2 * x.reg + bit b) % 2 ^ 32 }
    let t := rxTail b x
    let y := rxSym (syncSeen tol x.reg) b t.1
    let z := rxScan tol r y.1
    (z.1, t.2 ++ y.2 ++ z.2)

/-- Whether a frame is in reception (R281, R295). -/
def WmkRx.busy (x : WmkRx) : Bool := x.syms.isSome || x.tail.isSome

/-- Hard symbol decisions of lane n's demodulator, while it runs and FLARE_RX = 0: failed receptions are counted, and each good frame is counted and handed on (R279, R281, R294, R295). -/
def wmkReceive (hand : WmkSlot → State → State) (n : Lane) (symbols : List Bool) (s : State) : State :=
  if !demodOn s n || s.flag (wmkP n) wmkFlareRx then s
  else
    let x := rxScan (s.fget (wmkP n) ⟨0x044, 0, 3⟩) symbols s.wmk[n].rx
    let s := (s.setWmk n (fun w => { w with rx := x.1 })).setFlag (wmkP n) wmkInRx x.1.busy
    each x.2 (fun e s =>
      match e with
      | .falseSync => addCtr (cWmk n 2) 1 s
      | .hdrErr => addCtr (cWmk n 3) 1 s
      | .typeErr => addCtr (cWmk n 5) 1 s
      | .crcErr => addCtr (cWmk n 4) 1 s
      | .frame f => hand f (addCtr (cWmk n 1) 1 s)) s

/-- RX_STAT shows the slot in view and whether both are full (R282, R295). -/
def rxShow (n : Lane) (s : State) : State :=
  s.wr (ra (wmkP n) 0x060) (match s.wmk[n].slots with
    | [] => 0
    | x :: r =>
      let h := x.hdr.toNat
      bits h 28 4 + bits h 20 8 * 16 + bits h 12 8 * 2 ^ 12 + bits h 9 3 * 2 ^ 20 + 2 ^ 24 + bit (!r.isEmpty) * 2 ^ 25)

/-- A frame for a receive slot: it is placed with event WMKn_RX, or dropped with both full (R282). -/
def toSlot (n : Lane) (f : WmkSlot) (s : State) : State :=
  if 2 ≤ s.wmk[n].slots.length then raise (evWmk n 1) (rxTyp f) (addCtr (cWmk n 6) 1 s)
  else raise (evWmk n 0) (rxTyp f) (rxShow n (s.setWmk n (fun w => { w with slots := w.slots ++ [f] })))

/-- A frame that the device handles is copied to a slot where RX_ALL = 1 (R279). -/
def alsoSlot (n : Lane) (f : WmkSlot) (s : State) : State := if tb (s.rd (ra (wmkP n) 0x040)) 11 then toSlot n f s else s

/-- Four bytes of a payload as a number, the first lowest. -/
def le4 (l : List Byte) (i : Nat) : Nat := ofLE ((l.drop i).take 4)

/-- Four bytes of a payload as a number, the first highest. -/
def be4 (l : List Byte) (i : Nat) : Nat := ofBE ((l.drop i).take 4)

/-- CAP: the payload is held in FAR_CAP (R285, R295). -/
def capTake (n : Lane) (f : WmkSlot) (s : State) : State :=
  alsoSlot n f ((s.wr (ra (wmkP n) 0x070) (le4 f.payload 0)).wr (ra (wmkP n) 0x074) (le4 f.payload 4))

/-- LAT: the payload is held in FAR_LAT, and LAT_RX_CNT counts (R286, R295). -/
def latTake (n : Lane) (f : WmkSlot) (s : State) : State :=
  let p := f.payload
  let c := s.fget (wmkP n) ⟨0x084, 16, 16⟩ + 1
  let s := ((s.wr (ra (wmkP n) 0x078) (be4 p 0)).wr (ra (wmkP n) 0x07C) (be4 p 4)).wr (ra (wmkP n) 0x080) (be4 p 8)
  alsoSlot n f (s.wr (ra (wmkP n) 0x084) (ofLE ((p.drop 12).take 2) + c % 65536 * 65536))

/-- A write of RX_CTRL.RELEASE: the slot in view is freed (R282). -/
def rxReleaseOp (n : Lane) (s : State) : State := rxShow n (s.setWmk n (fun w => { w with slots := w.slots.drop 1 }))

/-- RX_RELEASE (R282). -/
def execRxRelease (n : Lane) (s : State) : Host.Outcome State Fault Refusal := nxt (rxReleaseOp n s)

/-- Word i of the slot in view; bytes past the frame read 0 (R295). -/
def rxWord (s : State) (n : Lane) (i : Nat) : Nat :=
  match s.wmk[n].slots with
  | [] => 0
  | x :: _ => le4 x.payload (4 * i)

end Sys2Proof.Machine
end

