-- ==== Sys2Proof/Machine/Flare.lean ====
section
/-! DEFINITION. Flares: sending, crossings, the decoding of a flare guard, and what an accepted code does (R288 to R294). -/

namespace Sys2Proof.Machine

/-- FLARE_TX.BUSY (R295). -/
def flareBusy : Fld := ⟨0x098, 3, 1⟩
/-- FLARE_TX.RESULT. -/
def flareResult : Fld := ⟨0x098, 4, 2⟩
/-- FLARE_TX.COPIES. -/
def flareCopies : Fld := ⟨0x098, 6, 4⟩
/-- FLARE_CFG.REF_ENTRY. -/
def flareRefEntry : Fld := ⟨0x090, 5, 4⟩
/-- FLARE_CFG.RX_EN. -/
def flareRxEn : Fld := ⟨0x090, 9, 1⟩
/-- FLARE_THR.THR. -/
def flareThr : Fld := ⟨0x094, 0, 8⟩

/-! Sending -/

/-- A flare of a code on lane n, asked for by the host or by the device: refused where the laser is not ON, HOLD is set or a flare is being sent; else it begins at the end of any watermark frame in progress (R289). -/
def flareSendOp (n : Lane) (code : Nat) (host : Bool) (s : State) : State :=
  if s.fget lasP (lbState n) ≠ 1 ∨ s.flag (wmkP n) wmkHold = true ∨ s.flag (wmkP n) flareBusy = true then
    onlyIf host (fun s => s.fset (wmkP n) flareResult 2) s
  else
    let s := ((s.setFlag (wmkP n) flareBusy true).fset (wmkP n) flareResult 0).fset (wmkP n) flareCopies 0
    flareGo n (s.setWmk n (fun w => { w with flareCode := code % 4, flareWait := true }))

/-- FLARE_SEND: the code in FLARE_TX.CODE (R289). -/
def execFlareSend (n : Lane) (s : State) : Host.Outcome State Fault Refusal :=
  nxt (flareSendOp n (s.fget (wmkP n) ⟨0x098, 0, 2⟩) true s)

/-- FLARE_TX_END: the flare's eighth slot has been sent, or the laser's state has ended it after `copies` slots; event WMKn_FLARE_TX (R289, R296). -/
def execFlareTxEnd (n : Lane) (copies : Nat) (s : State) : Host.Outcome State Fault Refusal :=
  if s.flag (wmkP n) flareBusy && !s.wmk[n].flareWait then
    let whole := s.wmk[n].flareOn
    let res := if whole then 1 else 3
    let c := if whole then 8 else min 7 copies
    let s := ((s.setFlag (wmkP n) flareBusy false).fset (wmkP n) flareResult res).fset (wmkP n) flareCopies c
    let t := s.cycles
    let s := s.setWmk n (fun w => { w with flareOn := false, lastLocate := if w.flareCode = 1 then some t else w.lastLocate })
    nxt (raise (evWmk n 3) (res + 4 * c) s)
  else nxt s

/-- DUSK_BEACON: BEACON_T has passed on a lane in dusk, and a WAKE flare is sent where R289 allows (R326). -/
def execDuskBeacon (n : Lane) (s : State) : Host.Outcome State Fault Refusal :=
  nxt (if s.flag pwrP (pwrDusk n) && s.flag pwrP ⟨0x05C, 0, 1⟩ then flareSendOp n 0 false s else s)

/-! Detection -/

/-- FLARE_CROSSING: the pin has been below the comparator level for 20 µs; FLARE_RX sets, a watermark frame in reception and the lane's accumulating set are dropped, and one flare guard is asked for (R98, R290, R294). -/
def execFlareCrossing (n : Lane) (s : State) : Host.Outcome State Fault Refusal :=
  let armed := match s.wmk[n].vref with
    | some (v, _) => decide (0 < v)
    | none => false
  if s.flag (wmkP n) flareRxEn && armed && s.pwr.hkOn && !s.flag (wmkP n) wmkFlareRx then
    let s := s.setFlag (wmkP n) wmkFlareRx true
    let s := if s.wmk[n].rx.busy then addCtr (cWmk n 7) 1 s else s
    let s := (s.setWmk n (fun w => { w with rx := {} })).setFlag (wmkP n) wmkInRx false
    let s := if s.wmk[n].guardOut then s else guardReq (.flare n) (s.setWmk n (fun w => { w with guardOut := true }))
    nxt (calCheck n (gradDrop n s))
  else nxt s

/-- FLARE_RX_CLEAR: 1 ms above the level, or 12 ms after the lane's last flare guard; a LOCATE echo is sent (R290, R293). -/
def execFlareRxClear (n : Lane) (s : State) : Host.Outcome State Fault Refusal :=
  if s.flag (wmkP n) wmkFlareRx then
    let s := calCheck n (s.setFlag (wmkP n) wmkFlareRx false)
    nxt (if s.wmk[n].echo then flareSendOp n 1 false (s.setWmk n (fun w => { w with echo := false })) else s)
  else nxt s

/-- HOLD_EXPIRY: HOLD_T has passed since the last accepted HOLD_OFF (R293). -/
def execHoldExpiry (n : Lane) (s : State) : Host.Outcome State Fault Refusal := nxt (s.setFlag (wmkP n) wmkHold false)

/-- A bit of FLARE_STAT is set (R295). -/
def flareStat (n : Lane) (b : Nat) (v : Bool) (s : State) : State := s.setFlag (wmkP n) ⟨0x09C, b, 1⟩ v

/-- What an accepted code does (R293, R325, R329). -/
def flareAction (n : Lane) (code : Nat) (s : State) : State :=
  match code with
  | 0 =>
    let s := wakeLane n 1 (flareStat n 2 false (flareStat n 0 true s))
    let en := s.rd (ra pwrP 0x044)
    if tb en 1 && tb en (8 + n) then wakeSource 3 n s else s
  | 1 =>
    let s := flareStat n 1 true s
    let late := match s.wmk[n].lastLocate with
      | some t => decide (31250000 ≤ s.since t)
      | none => true
    if s.flag (wmkP n) ⟨0x090, 14, 1⟩ && late then s.setWmk n (fun w => { w with echo := true }) else s
  | 2 => flareStat n 2 true s
  | _ => s.setFlag (wmkP n) wmkHold true

/-- Whether a cycle `t` lies within some cycles of an earlier one, held as 1 more than it, 0 being none. -/
def soonAfter (held t cycles : Nat) : Bool := held != 0 && decide ((t + 2 ^ 48 - (held - 1)) % 2 ^ 48 ≤ cycles)

/-- A qualified reception of a code whose MARK began at cycle `t`: it is counted, and the second of the code within 50 ms is accepted, unless the code was accepted less than 100 ms before (R292). -/
def flareQualified (n : Lane) (code t : Nat) (s : State) : State :=
  let s := addCtr (cWmk n 8) 1 s
  if !tb (s.rd (ra (wmkP n) 0x090)) (10 + code) || soonAfter (kget 0 s.wmk[n].lastAcc code) t 15624999 then s
  else if soonAfter (kget 0 s.wmk[n].lastQual code) t 7812500 then
    let s := s.setWmk n (fun w => { w with lastQual := kput 0 w.lastQual code 0, lastAcc := kput 0 w.lastAcc code (t + 1) })
    let s := s.fset (wmkP n) ⟨0x09C, 3, 2⟩ code
    flareAction n code (raise (evWmk n 2) code s)
  else s.setWmk n (fun w => { w with lastQual := kput 0 w.lastQual code (t + 1) })

/-- The code whose qualifier lies within 2 bit differences of a word (R291). -/
def qualCode (w : Nat) : Option Nat :=
  (List.range 4).find? (fun c => decide (((List.range 16).filter (fun i => tb (w ^^^ qualifier c) i)).length ≤ 2))

/-- Where the decoder has armed: the sum of the first 16 consecutive outputs below the level, and the outputs after them (R291; log entry 27). -/
def flareArm (below : Int → Bool) : Nat → Int → List Int → Option (Int × Int × List Int)
  | _, _, [] => none
  | k, sum, x :: r =>
    if below x then (if k = 15 then some (sum + x, x, r) else flareArm below (k + 1) (sum + x) r)
    else flareArm below 0 0 r

/-- The first upward crossing of a level in outputs that follow `p`: the outputs from it on (R291). -/
def upCross (above : Int → Bool) : Int → List Int → Option (List Int)
  | _, [] => none
  | p, x :: r => if !above p && above x then some (x :: r) else upCross above x r

/-- The outputs of a flare guard from its MARK on; none where the first 528 outputs, 6.6 ms, hold none (R291). -/
def flareMark (v : Int) (den thr : Nat) (outs : List Int) : Option (List Int) :=
  match flareArm (fun x => decide (x * 256 * (den : Int) < v * (thr : Int))) 0 0 outs with
  | none => none
  | some (lead, p, r) =>
    -- x ≥ (lead / 16 + v / den) / 2
    match upCross (fun x => decide (lead * (den : Int) + 16 * v ≤ 32 * (den : Int) * x)) p r with
    | some l => if outs.length - l.length < 528 then some l else none
    | none => none

/-- The 16 qualifier bits of a MARK, the first most significant (R288, R291). -/
def flareWord (l : List Int) : Nat :=
  let chip (c : Nat) : Int := nth 0 l (16 + 4 * c + 1) + nth 0 l (16 + 4 * c + 2)
  ofMsb ((List.range 16).map (fun i => decide (chip (2 * i + 1) < chip (2 * i))))

/-- The end of a flare guard over its valid outputs: a qualified reception, or an unqualified one that is counted (R291). -/
def flareDecode (n : Lane) (outs : List Int) (s : State) : State :=
  let s := s.setWmk n (fun w => { w with guardOut := false })
  let (v, den) := (s.wmk[n].vref).getD (0, 1)
  match flareMark v den (s.fget (wmkP n) flareThr) outs with
  | none => addCtr (cWmk n 9) 1 s
  | some l =>
    match qualCode (flareWord l) with
    | some code => flareQualified n code ((s.cycles + 2 ^ 48 - l.length * 1953125 / 1000) % 2 ^ 48) s
    | none => addCtr (cWmk n 9) 1 s

/-- A publication of an entry of the twilight round updates V_REF of the lanes that name it, while FLARE_RX = 0; an entry of another input is recorded (R290). -/
def vrefPublish (e : Nat) (sum : Int) (cnt gain input : Nat) (s : State) : State :=
  each ((List.finRange 8).filter (fun (n : Lane) => s.flag (wmkP n) flareRxEn && s.fget (wmkP n) flareRefEntry == e && !s.flag (wmkP n) wmkFlareRx)) (fun n s =>
    if input = s.fget (wmkP n) ⟨0x090, 0, 5⟩ then s.setWmk n (fun w => { w with vref := some (sum, max 1 (cnt * gain)) })
    else errInfo (wmkP n) (wmkP n) 0x090 18 3 s) s

end Sys2Proof.Machine
end

