-- ==== Sys2Proof/Machine/Fuse.lean ====
section
/-! DEFINITION. The security fuses and their blowing (R430, R438 to R441). -/

namespace Sys2Proof.Machine

/-- SEC_STAT, customer Ream loaded. -/
def custIn : Fld := ⟨0x040, 2, 1⟩
/-- SEC_STAT.ID_READY. -/
def idReadyF : Fld := ⟨0x040, 3, 1⟩
/-- CMD_STAT.BUSY (R446). -/
def cmdBusy : Fld := ⟨0x054, 0, 1⟩
/-- CMD_STAT.RESULT. -/
def cmdResult : Fld := ⟨0x054, 1, 2⟩
/-- CMD_STAT.CAUSE. -/
def cmdCause : Fld := ⟨0x054, 3, 4⟩
/-- CMD_STAT, last CMD. -/
def cmdLast : Fld := ⟨0x054, 8, 4⟩

/-- SEC_STAT shows the fuses (R446). -/
def fuseShow (s : State) : State :=
  let s := (s.setFlag secP ⟨0x040, 4, 1⟩ s.sec.lock).fset secP ⟨0x040, 6, 7⟩ s.sec.rollF
  (s.fset secP ⟨0x040, 13, 4⟩ s.sec.progd.toNat).fset secP ⟨0x040, 17, 3⟩ (s.sec.revoked.toNat / 2)

/-- The fuse of a command is blown and takes force at once: 2 the next of the counter, 3 a key, 4 a revocation, 5 the observation lock (R438 to R441). -/
def blowApply (b : Blow) (s : State) : State :=
  let m : BitVec 4 := BitVec.ofNat 4 (2 ^ b.slot)
  let f := s.sec
  fuseShow { s with sec :=
    if b.cmd = 2 then { f with rollF := max f.rollF (min 64 (f.rollF + 1)) }
    else if b.cmd = 3 then { f with progd := f.progd ||| m }
    else if b.cmd = 4 then { f with revoked := f.revoked ||| m }
    else { f with lock := true } }

/-- A blow cut short by power loss or thermal shutdown leaves the fuse either blown or unblown (R438). -/
def blowCut (s : State) : State :=
  match s.sec.blow with
  | none => s
  | some b =>
    let (v, s) := { s with sec := { s.sec with blow := none } }.draw 1
    if v = 1 then blowApply b s else s

end Sys2Proof.Machine
end

