-- ==== Sys2Proof/Machine/Thermal.lean ====
section
/-! DEFINITION. Temperature: readings of the twelve sensors from housekeeping publications, roles, the band and what follows it, warnings, and thermal shutdown (R217, R336, R348 to R359). -/

namespace Sys2Proof.Machine

/-- Page THM. -/
def thmP : Nat := 0x002
/-- THM_STAT.BAND (R360). -/
def thmBand : Fld := ⟨0x040, 0, 3⟩
/-- THM_STAT.VALID. -/
def thmValid : Fld := ⟨0x040, 3, 1⟩
/-- THM_STAT.WARN. -/
def thmWarn : Fld := ⟨0x040, 5, 1⟩
/-- TEMP of sensor i: the reading. -/
def tempF (i : Nat) : Fld := ⟨0x048 + 4 * i, 0, 16⟩
/-- VALID of sensor i. -/
def tempValid (i : Nat) : Fld := ⟨0x048 + 4 * i, 16, 1⟩
/-- BROKEN of sensor i. -/
def tempBroken (i : Nat) : Fld := ⟨0x048 + 4 * i, 17, 1⟩
/-- WARN_HI of sensor i. -/
def tempHi (i : Nat) : Fld := ⟨0x048 + 4 * i, 18, 1⟩
/-- WARN_LO of sensor i. -/
def tempLo (i : Nat) : Fld := ⟨0x048 + 4 * i, 19, 1⟩

/-! Readings -/

/-- 2^80, the unit of the logarithm below. -/
def lnOne : Nat := 2 ^ 80

/-- The terms of 2·atanh z from z^(2k+1), z being in units of 2^-80 (R349). -/
def atanhSum : Nat → Nat → Nat → Nat → Nat
  | 0, _, _, _ => 0
  | f + 1, k, p, z2 => 2 * p / (2 * k + 1) + atanhSum f (k + 1) (p * z2 / lnOne) z2

/-- ln(a / b) in units of 2^-80, by halving to below 2 and the series of atanh (R349). -/
def lnFix (a b : Nat) : Int :=
  let n : Int := (Nat.log2 a : Int) - (Nat.log2 b : Int)
  let (a, b) := if 0 ≤ n then (a, b * 2 ^ n.toNat) else (a * 2 ^ (-n).toNat, b)
  let (a, n) := if a < b then (2 * a, n - 1) else (a, n)
  let z := (a - b) * lnOne / (a + b)
  n * 837963523372001241319908 + (atanhSum 45 0 z (z * z / lnOne) : Int)

/-- A temperature in 1/16 °C as an exact quotient, the denominator positive; none where the formula of R349 has no value. -/
abbrev TempQ := Option (Int × Nat)

/-- A diode's temperature from an entry's sum, count and gain, η being e / 32,768 (R349). -/
def diodeTemp (sum : Int) (cnt gain e : Nat) : TempQ :=
  let d := 256 * cnt * gain * e * 19842
  if d = 0 then none else some (sum * 20000000000 - 43704 * (d : Int), 10 * d)

/-- A thermistor's temperature, k being 1 at 10 µA and 10 at 100 µA, `p` R25 in 10 Ω and `beta` in K (R349). -/
def thermTemp (sum : Int) (cnt gain k p beta : Nat) : TempQ :=
  let b := cnt * gain * 8388608 * k * p
  if sum ≤ 0 ∨ b = 0 ∨ beta = 0 then none
  else
    let den : Int := 100 * (beta : Int) * (lnOne : Int) + 29815 * lnFix (sum.toNat * 12500) b
    if den ≤ 0 then none
    else some (160 * 29815 * (beta : Int) * (lnOne : Int) - 43704 * den, (10 * den).toNat)

/-- Whether a remote sensor's pin voltage lies outside 20 mV to 1.15 V: 1 above, 2 below, 0 inside (R350). -/
def pinWindow (sum : Int) (cnt gain : Nat) : Nat :=
  let u : Int := (cnt : Int) * gain * 8388608
  if 115 * u < sum * 125 then 1 else if sum * 125 < 2 * u then 2 else 0

/-! Roles -/

/-- The roles that the registers give sensor i: bit 0 band, bit 1 warning, bit 2 shutdown; every die diode holds shutdown (R351). -/
def rolesNow (s : State) (i : Nat) : Nat :=
  if i < 6 then
    let d := s.rd (ra thmP 0x0B8)
    bits d i 1 + 2 * bits d (8 + i) 1 + 4
  else bits (s.rd (ra thmP (0x080 + 4 * (i - 6)))) 6 3

/-- The roles in force of sensor i; before its first reading those of the registers (R351). -/
def rolesOf (s : State) (i : Nat) : Nat := kget (rolesNow s i + 8) s.roles i % 8

/-- Whether a sensor takes part in roles: a remote one only while its MODE is not off (R348). -/
def sensorOn (s : State) (i : Nat) : Bool := decide (i < 6) || bits (s.rd (ra thmP (0x080 + 4 * (i - 6)))) 0 2 != 0

/-- The sensors that hold the band role. -/
def bandSensors (s : State) : List Nat := (List.range 12).filter (fun i => sensorOn s i && tb (rolesOf s i) 0)

/-- The reading of sensor i in 1/16 °C. -/
def tempOf (s : State) (i : Nat) : Int := sx 16 (s.fget thmP (tempF i))

/-- The highest VALID reading among band-role sensors and its sensor, the lowest number of equal ones (R352). -/
def bandTemp (s : State) : Option (Int × Nat) :=
  ((bandSensors s).filter (fun i => s.flag thmP (tempValid i))).foldl (fun a i =>
    match a with
    | some (t, j) => if t < tempOf s i then some (tempOf s i, i) else some (t, j)
    | none => some (tempOf s i, i)) none

/-! Bands -/

/-- The lower bound of a band in 1/16 °C (R352). -/
def bandLow (b : Nat) : Int := nth 0 [0, 720, 1120, 1440, 1680] b

/-- The band after a fall from band b (R352). -/
def bandFall : Nat → Int → Nat
  | 0, _ => 0
  | b + 1, t => if t < bandLow (b + 1) - 48 then bandFall b t else b + 1

/-- The band decided from the band in force (R352). -/
def bandNext (b : Nat) (t : Int) : Nat :=
  let up := ((List.range 5).filter (fun k => decide (0 < k ∧ bandLow k ≤ t))).foldl max 0
  if b < up then up else bandFall b t

/-- The margin floor of a band in 0.1 % (R336). -/
def bandFloor (b : Nat) : Nat := nth 150 [60, 80, 100, 120, 150] b

/-- The band in force takes a value: the pace floor and the scrub rate follow it (R353). -/
def bandSet (b : Nat) (s : State) : State :=
  let s := s.fset thmP thmBand b
  let s := s.wr (ra pwrP 0x06C) (bandFloor b + b * 256)
  s.fset 0x00B ⟨0x0A4, 8, 3⟩ b

/-- BAND_T and THM_STAT.VALID follow the readings (R352, R360; log entry 25). -/
def bandShow (s : State) : State :=
  let s := match bandTemp s with
    | some (t, i) => s.wr (ra thmP 0x044) (enc2 16 t + i * 65536)
    | none => s.wr (ra thmP 0x044) 0x000F0000
  s.setFlag thmP thmValid (!(bandSensors s).isEmpty && (bandSensors s).all (fun i => s.flag thmP (tempValid i)))

/-- The band is decided at a reading of a band-role sensor, or is SEVERE where none is VALID; a change and the first decision raise event 48 (R352). -/
def bandDecide (s : State) : State :=
  let s := bandShow s
  let b := s.fget thmP thmBand
  match bandTemp s with
  | none => if b = 4 then s else raise 48 (4 + 8 * b) (bandSet 4 s)
  | some (t, _) =>
    if s.banded then
      let n := bandNext b t
      if n = b then s else raise 48 (n + 8 * b) (bandSet n s)
    else if s.flag thmP thmValid then
      let n := bandNext b t
      raise 48 (n + 8 * b) (bandSet n { s with banded := true })
    else s

/-! Warnings -/

/-- One warning flag of a sensor after a reading: set at its limit, cleared 3 °C inside it (R355). -/
def warnFlag (was : Bool) (at_ : Bool) (inside : Bool) : Bool := at_ || (was && !inside)

/-- THM_STAT.WARN: any warning flag is set (R360). -/
def warnShow (s : State) : State :=
  s.setFlag thmP thmWarn ((List.range 12).any (fun j => s.flag thmP (tempHi j) || s.flag thmP (tempLo j)))

/-- The warnings of sensor i at a reading (R355). -/
def warnCheck (i : Nat) (t : Int) (s : State) : State :=
  let l := s.rd (ra thmP (0x0C0 + 4 * i))
  let on := tb (rolesOf s i) 1
  let hi := 16 * sx 8 l
  let lo := 16 * sx 8 (l / 256)
  let h0 := s.flag thmP (tempHi i)
  let l0 := s.flag thmP (tempLo i)
  let h1 := on && warnFlag h0 (decide (hi ≤ t)) (decide (t ≤ hi - 48))
  let l1 := on && warnFlag l0 (decide (t ≤ lo)) (decide (lo + 48 ≤ t))
  let s := warnShow ((s.setFlag thmP (tempHi i) h1).setFlag thmP (tempLo i) l1)
  let s := if h1 && !h0 then raise 49 i s else s
  if l1 && !l0 then raise 49 (i + 16) s else s

/-! Shutdown -/

/-- Every engine stops and every line lane with it, as its power goes (R357). -/
def coreDown (s : State) : State :=
  let s := each (List.finRange 5) (fun e s => s.setEng e (fun g => { g with phase := .idle, wq := [] })) s
  let s := each (List.finRange 8) (fun n s =>
    ((stopLane n s).setLane n (fun l => { l with calRate := 0, modeSwitch := none })).setCal n (fun c => { c with corr := [] })) s
  let s := { s with pwr := { s.pwr with coreOn := false, laneOn := 0, subOn := 0, hostOn := 0, waitGood := [], sdKept := 0 } }
  each (List.finRange 16) (fun h s => (((s.setFlag (htxP h) htxPll false).setFlag (hrxP h) hrxLos true).setFlag (hrxP h) hrxCdr false)) s

/-- A download command under way is cut short and ends as failed (R357, R359, R434; log entry 35). -/
def cmdCut (fuse : Bool) (s : State) : State :=
  let s := onlyIf (s.sec.progSlot.isSome || s.sec.actRun || (fuse && s.sec.blow.isSome)) (fun s => (s.setFlag secP cmdBusy false).fset secP cmdResult 3) s
  { s with sec := { s.sec with progSlot := none, actRun := false } }

/-- Thermal shutdown latches and runs; its event is logged after every other that waits (R356, R357, R359, R401). -/
def shutdown (sensor cause : Nat) (t : Int) (s : State) : State :=
  if s.shut then s
  else
    let s := (s.setFlag thmP thmShut true).wr (ra thmP 0x0F0) (sensor + cause * 16 + enc2 16 t * 65536)
    let s := raiseAfter 51 (sensor + 16 * cause) (s.evt.queue.map (fun r => r.id)) s
    let s := lasForceAll s
    let s := blowCut (cmdCut true { s with nv := { s.nv with wait := [], queue := [], compact := 0 } })
    let s := coreDown (pressDropAll s)
    let s := { s with seq := { s.seq with drain := 0 }, pwr := { s.pwr with avsWhole := some 0, avsFails := 0, wakePend := none } }
    ((targetSet 0 s).setFlag pwrP vcoreRaise false).fset pwrP pwrState 0

/-- The shutdown check of a reading: a broken sensor, the fixed limit of a die diode, or SHUT_LIM of a remote one (R356). -/
def shutCheck (i : Nat) (t : Int) (broken : Bool) (s : State) : State :=
  if !tb (rolesOf s i) 2 then s
  else if broken then shutdown i 3 t s
  else if i < 6 then (if 2000 ≤ t then shutdown i 1 t s else s)
  else if (16 * bits (s.rd (ra thmP (0x0C0 + 4 * i))) 16 8 : Nat) ≤ t then shutdown i 2 t s
  else s

/-! Publications -/

/-- The calibration temperature of the lanes of a die diode: a move of TEMP_STEP or more from the reference sets FAST (R217). -/
def calTemp (i : Nat) (t : Int) (s : State) : State :=
  let step : Int := 4 * (s.fget bistP ⟨0x140, 16, 6⟩ : Nat)
  each ((List.finRange 8).filter (fun (n : Lane) => n.val / 2 == i)) (fun n s =>
    match s.cal[n].tRef with
    | some r => if step ≤ (if r ≤ t then t - r else r - t) then calFastOn n (s.setCal n (fun c => { c with tRef := some t })) else s
    | none => s) s

/-- A reading of sensor i takes effect: roles, flags, calibration, band and shutdown (R217, R350 to R356). -/
def reading (i : Nat) (t : Int) (broken short : Bool) (s : State) : State :=
  let s := { s with roles := kput 0 s.roles i (rolesNow s i + 8) }
  let was := s.flag thmP (tempBroken i)
  let s := ((s.fset thmP (tempF i) (enc2 16 t)).setFlag thmP (tempValid i) true).setFlag thmP (tempBroken i) broken
  let s := s.fset thmP ⟨0x040, 8 + i, 1⟩ (bit broken)
  let s := if broken && !was then raise 50 (i + 16 * bit short) s else s
  let s := onlyIf (decide (i < 6)) (calTemp i t) (warnCheck i t s)
  let s := if tb (rolesOf s i) 0 then bandDecide s else bandShow s
  shutCheck i t broken s

/-- Both converters are UNUSABLE: every sensor reads as broken, and shutdown latches with cause 4 (R222, R350, R356, R360). -/
def convertersBad (s : State) : State :=
  shutdown 0xF 4 0 (each (List.range 12) (fun i s =>
    let was := s.flag thmP (tempBroken i)
    let s := ((s.fset thmP (tempF i) 2400).setFlag thmP (tempBroken i) true).fset thmP ⟨0x040, 8 + i, 1⟩ 1
    if was then s else raise 50 i s) s)

/-- The temperature of a quotient, rounded to the nearest 1/16 °C; an open value where the formula gives none (R349; log entry 3). -/
def tempRound (q : TempQ) (s : State) : Int × State :=
  match q with
  | some (n, d) => (clampI (-32768) 32767 (roundNear n d), s)
  | none => let (v, s) := s.draw 16; (sx 16 v, s)

/-- A die diode is read (R349, R350). -/
def dieReading (i : Nat) (sum : Int) (cnt gain : Nat) (s : State) : State :=
  let q := diodeTemp sum cnt gain (Config.dieEta i)
  let broken := match q with
    | some (n, d) => decide (n < -960 * (d : Int) ∨ 3200 * (d : Int) < n)
    | none => false
  let (t, s) := tempRound q s
  reading i (if broken then 2400 else t) broken false s

/-- Remote sensor j is read in its mode (R348 to R350). -/
def remoteReading (j : Nat) (sum : Int) (cnt gain : Nat) (s : State) : State :=
  let mode := bits (s.rd (ra thmP (0x080 + 4 * j))) 0 2
  let p := s.rd (ra thmP (0x0A0 + 4 * j))
  let w := pinWindow sum cnt gain
  if w ≠ 0 then reading (6 + j) 2400 true (w == 2) s
  else
    let q := if mode = 1 then diodeTemp sum cnt gain (p % 65536)
      else thermTemp sum cnt gain (if mode = 2 then 1 else 10) (p % 65536) (p / 65536)
    let (t, s) := tempRound q s
    reading (6 + j) t false false s

/-- A sensor is not VALID any more: the band follows where no band-role sensor is left (R348, R352). -/
def sensorOff (i : Nat) (s : State) : State :=
  let s := bandShow (s.setFlag thmP (tempValid i) false)
  if (bandTemp s).isNone then bandDecide s else s

/-- A remote sensor that is not read is not VALID, takes part in no role and warns of nothing (R348). -/
def sensorUnread (i : Nat) (s : State) : State :=
  let s := { s with roles := kput 0 s.roles i 8 }
  sensorOff i (warnShow ((s.setFlag thmP (tempHi i) false).setFlag thmP (tempLo i) false))

/-- A remote sensor whose entry converts another input is not read; ERR_INFO records it (R348). -/
def mismatch (j : Nat) (s : State) : State := errInfo thmP thmP (0x080 + 4 * j) 18 3 (sensorUnread (6 + j) s)

/-- THM takes a publication of an entry of the twilight round: its sum, count, gain and input (R348). -/
def thmPublish (e : Nat) (sum : Int) (cnt gain input : Nat) (s : State) : State :=
  let s := if e < 6 then dieReading e sum cnt gain s else s
  each (List.range 6) (fun j s =>
    let c := s.rd (ra thmP (0x080 + 4 * j))
    if bits c 0 2 ≠ 0 ∧ bits c 2 4 = e then
      if input = 0x38 + 8 * bits c 0 2 + j then remoteReading j sum cnt gain s else mismatch j s
    else s) s

/-- SENSOR_STALE: the sensor's entry has not published for 30 ms (R348). -/
def execSensorStale (sensor : Fin 12) (s : State) : Host.Outcome State Fault Refusal := nxt (sensorOff sensor s)

/-- A write of TS_CFG: a sensor whose MODE is off is not read (R348). -/
def tsCfgWritten (s : State) : State :=
  each (List.range 6) (fun j s =>
    if bits (s.rd (ra thmP (0x080 + 4 * j))) 0 2 = 0 ∧ s.flag thmP (tempValid (6 + j)) then sensorUnread (6 + j) s else s) s

end Sys2Proof.Machine
end

