-- ==== Sys2Proof/Machine/HkDone.lean ====
section
/-! DEFINITION. The end of a housekeeping conversion: outputs, accumulation, publication, and who takes it (R235, R251, R252, R264, R272, R290, R291, R348). -/

namespace Sys2Proof.Machine

/-- One lock-in product, rounded half up: output × r / 2^15 with r = s / 2 and s the sample of the reference NCO (R252; log entry 11). -/
def lockIn (s : State) (ref : Nat) (o : Int) (ph : BitVec 32) : Int := roundHalfUp (o * ncoSample s (Fin.ofNat 4 (ref - 1)) ph.toNat) 65536

/-- The sum of an accumulation: of the outputs, or of their lock-in products at the phases that the NCO had one group delay before each (R252). -/
def hkSum (s : State) (ref : Nat) (outs : List Int) (phases : List (BitVec 32)) : Int :=
  if ref = 0 then sumI outs else sumI ((outs.zip (phases ++ List.replicate outs.length 0#32)).map (fun p => lockIn s ref p.1 p.2))

/-- The smallest of a list of outputs. -/
def leastI (l : List Int) : Int := l.foldl (fun a b => if b < a then b else a) (l.headD 0)

/-- The largest of a list of outputs. -/
def mostI (l : List Int) : Int := l.foldl (fun a b => if a < b then b else a) (l.headD 0)

/-- A result slot after a publication (R251, R253). -/
def HkRes.publish (r : HkRes) (sum : Int) (outs : List Int) (input : Nat) : HkRes :=
  { sum := BitVec.ofInt 48 sum, min := BitVec.ofInt 24 (leastI outs), max := BitVec.ofInt 24 (mostI outs),
    cnt := outs.length, seqn := (r.seqn + 1) % 65536, input := input, fresh := true }

/-- LAS takes a publication of HKA: the laser whose MPD it is, at the laser's range (R235). -/
def lasPublish (input : Nat) (outs : List Int) (tied : Bool) (s : State) : State :=
  each ((List.finRange 8).filter (fun (n : Lane) => input == 0x20 + 4 * n.val + s.fget lasP (lbRange n)))
    (fun (n : Lane) s => lasCheck n (leastI outs) (mostI outs) tied s) s

/-- The publication of a slot, and FC_STAT's bit of it (R251, R264). -/
def hkSlot (b : Fin 2) (slot : Fin 17) (sum : Int) (outs : List Int) (sat : Bool) (input : Nat) (s : State) : State :=
  let s := s.setHk b (fun h => { h with res := h.res.set slot (h.res[slot].publish sum outs input) })
  s.setFlag (hkP b) ⟨0x1F4, slot.val, 1⟩ sat

/-- What a finished conversion publishes, by its job: `outs` are the accumulated outputs (R235, R248, R251, R290, R291, R348). -/
def hkPublish (b : Fin 2) (r : HkRun) (outs : List Int) (phases : List (BitVec 32)) (sat tied : Bool) (s : State) : State :=
  match r.job with
  | .entry e =>
    let e := e % 16
    let sum := hkSum s r.ref outs phases
    let s := hkSlot b (Fin.ofNat 17 e) sum outs sat r.set.input s
    let s := s.setHk b (fun h => { h with aborts := kput 0 h.aborts e 0, rot := kput 0 h.rot e ((kget 0 h.rot e + 1) % max 1 (rotInputs (hkEntry s b e)).length) })
    let s := onlyIf (b == 0) (lasPublish r.set.input outs tied) s
    let g := 2 ^ r.set.gain
    onlyIf (twilight s b) (fun s => vrefPublish e sum outs.length g r.set.input (thmPublish e sum outs.length g r.set.input s)) s
  | .host =>
    let s := hkSlot b 16 (hkSum s r.ref outs phases) outs sat r.set.input s
    onlyIf (b == 0) (lasPublish r.set.input outs tied) (s.setFlag (hkP b) hkBusyF false)
  | .guard (.las _) => lasPublish r.set.input outs tied s
  | .guard (.flare n) => flareDecode (Fin.ofNat 8 n) outs s

/-- Whether a conversion is a flare guard, which accumulates nothing and decodes every valid output (R291). -/
def HkRun.isFlare (r : HkRun) : Bool :=
  match r.job with
  | .guard (.flare _) => true
  | _ => false

/-- The outputs that a conversion lasts, and the least number of them for a flare guard (R245, R291). -/
def HkRun.need (r : HkRun) : Nat := r.discard + (if r.isFlare then 1 else 2 ^ r.acc)

/-- The bits of a conversion in periods of 256; a last incomplete period makes no output (R261). -/
def hkChunks (l : List Bool) : List (List Bool) := (chunk 256 (l.length / 256 + 1) l).filter (fun c => c.length == 256)

/-- The table words that the lock-in products of a conversion have met (R307, R309). -/
def lockMet (ref : Nat) (phases : List (BitVec 32)) (s : State) : State :=
  if ref = 0 then s else ncoMet (Fin.ofNat 4 (ref - 1)) (phases.map (fun p => p.toNat)) s

/-- HK_CONVERSION_DONE: the modulator bits since the converter's last conversion (`before`) and those of this one, with the reference phases of its accumulated outputs, go through the chain; the conversion publishes and the next begins. `tied`: a disable of the laser checked falls on the same instant (R240, R251, R252, R263 to R272). -/
def execHkConversionDone (b : Bool) (before bits : List Bool) (phases : List (BitVec 32)) (tied : Bool) (s : State) :
    Host.Outcome State Fault Refusal :=
  let b : Fin 2 := if b then 1 else 0
  match s.hk[b].run with
  | none => nxt s
  | some r =>
    let cs := hkChunks bits
    let cs := if r.isFlare then cs else cs.take r.need
    if !hkUp s b || decide (cs.length < r.need) then nxt s
    else
      let f := (fcOutputs (fcMode s b) s.hk[b].live r.set.bank (hkChunks before) s.hk[b].filt).2
      let (outs, f) := fcOutputs (fcMode s b) s.hk[b].live r.set.bank cs f
      let s := lockMet r.ref phases (s.setHk b (fun h => { h with filt := f }))
      let acc := outs.drop r.discard
      let s := addCtr (cHk b 1) (acc.filter (fun o => o.2)).length (addCtr (cHk b 0) r.discard s)
      let s := hkPublish b r (acc.map (fun o => o.1)) phases (acc.any (fun o => o.2)) tied s
      nxt (if s.hk[b].run.isSome then hkNext b (r.start + cs.length) s else s)

end Sys2Proof.Machine
end

