-- ==== Sys2Proof/Machine/Memory.lean ====
section
/-! DEFINITION. The memories' upkeep: the scrubber, the leaky buckets, the log of uncorrectable words, the flip mask, and the recovery of words from the Ream (R302, R306 to R316). -/

namespace Sys2Proof.Machine

/-- Page MEM. -/
def memP : Nat := 0x00B
/-- SCRUB_STAT.LATE of region r (R319). -/
def scrubLate (r : Nat) : Fld := ⟨0x0A4, r, 1⟩
/-- RELOAD_STAT.BUSY. -/
def reloadBusy : Fld := ⟨0x0A8, 0, 1⟩
/-- RELOAD_STAT.SHEET. -/
def reloadSheetF : Fld := ⟨0x0A8, 1, 8⟩
/-- RELOAD_STAT.FAIL. -/
def reloadFail : Fld := ⟨0x0A8, 9, 1⟩
/-- RELOAD_STAT.REGION. -/
def reloadRegion : Fld := ⟨0x0A8, 10, 3⟩

/-- The number of words of a block (R298). -/
def blockWords (m : Nat) : Nat := blockBytes m / eccBytes (regionOf m)

/-- Whether the region of a block is powered and not retained: EVTM lies in D_HK, the others in D_CORE (R31, R298). -/
def memPowered (s : State) (m : Nat) : Bool := if regionOf m = 5 then s.pwr.hkOn else s.pwr.coreOn

/-- Bits of a stored byte are inverted by an upset: bits 7 to 0 of the mask its data, bits 12 to 8 its check bits (R299). -/
def upset (a : Nat) (mask : BitVec 13) (s : State) : State :=
  let d := mask.toNat % 256
  { s with
    mem := kput (memDef a) s.mem a (s.byte a ^^^ BitVec.ofNat 8 d),
    chk := kput (chkDef a) s.chk a (s.chkErr a ^^^ BitVec.ofNat 5 (checkBits d ^^^ mask.toNat / 256)) }

/-- The blocks of a region, in order (R298). -/
def blocksOf (r : Nat) : List Nat := (List.range 176).filter (fun m => regionOf m == r)

/-- Whether the scrubber works on a block: it is powered and not retained, and not beyond repair, or redirected to the save window (R225, R306). -/
def scrubs (s : State) (m : Nat) : Bool := memPowered s m && (!s.unrep m || s.redirect == some m)

/-- The scrub lines of a block. -/
def blockLines (m : Nat) : Nat := blockBytes m / lineBytes (regionOf m)

/-- The line that the scrubber of a region reads next and where it stands after it, none at the end of its pass: its place in the pass, or after it the first block that is scrubbed; `base` counts the lines of the blocks before (R306). -/
def scrubFrom (s : State) (p : Nat) : Nat → List Nat → Option (Nat × Nat × Nat)
  | _, [] => none
  | base, m :: r =>
    let k := blockLines m
    if p < base + k ∧ scrubs s m then some (m, max p base - base, max p base + 1) else scrubFrom s p (base + k) r

/-- The scrubber's read of one line of a block, the copy in the save window of one under test: the upsets that its bytes have met since, and the errors found, each to be written back (R224, R302, R307, R309). -/
def scrubVisit (m line : Nat) (upsets : List (Nat × BitVec 13)) (s : State) : State :=
  let lb := lineBytes (regionOf m)
  let a := m * 65536 + line * lb
  let k := eccBytes (regionOf m)
  let s := each (upsets.filter (fun u => decide (u.1 < lb))) (fun u s => upset (a + u.1) u.2 s) s
  if s.ist.kind = 2 ∧ s.ist.unit = m then
    each (List.range lb) (fun i s =>
      if eccOf (s.chkErr (a + i)) = .ce ∧ s.written (a + i) = true then { s with ceSeen := kput false s.ceSeen (a + i) true } else s) s
  else each (List.range (lb / k)) (fun i s => (readWord .scrubber m ((line * lb) / k + i) s).2.2) s

/-- One grant of the scrubber of a region: the line that an error found by another reader has put first, or the next of its pass, whose end counts it and shows whether it was late (R306, R307). -/
def scrubLineOp (r : Nat) (upsets : List (Nat × BitVec 13)) (late : Bool) (s : State) : State :=
  match s.scrubNext.find? (fun x => regionOf x.1 == r && scrubs s x.1) with
  | some x => scrubVisit x.1 x.2 upsets { s with scrubNext := s.scrubNext.erase x }
  | none =>
    match scrubFrom s (kget 0 s.scrub r) 0 (blocksOf r) with
    | none => s
    | some (m, line, next) =>
      let s := scrubVisit m line upsets { s with scrub := kput 0 s.scrub r next }
      if (scrubFrom s next 0 (blocksOf r)).isSome then s
      else
        let s := addCtr (0x13 + 4 * r) 1 { s with scrub := kput 0 s.scrub r 0 }
        let s := s.setFlag memP (scrubLate r) late
        if late then raise 67 r s else s

/-- SCRUB_LINE (R306). -/
def execScrubLine (region : Fin 7) (upsets : List (Nat × BitVec 13)) (late : Bool) (s : State) : Host.Outcome State Fault Refusal :=
  nxt (scrubLineOp region upsets late s)

/-- SCRUB_WRITE_BACK: in one write, bytes whose error has been found and that no write has met since are corrected (R302, R307, R315). -/
def execScrubWriteBack (mac : Fin 176) (bytes : List Nat) (s : State) : Host.Outcome State Fault Refusal :=
  let r := regionOf mac
  let found := (bytes.filter (fun o => decide (o < blockBytes mac))).map (fun o => mac.val * 65536 + o)
    |>.filter (fun a => kget false s.ceSeen a && eccOf (s.chkErr a) == .ce)
  nxt (if scrubs s mac && !found.isEmpty then
    flipSpent r (each found (fun a t => t.putByte a (s.fetch a ^^^ flipData s r) (flipCheck s r)) s)
  else s)

/-- LEAK_TICK: the count of each region loses 1 if it is above 0 (R308). -/
def execLeakTick (s : State) : Host.Outcome State Fault Refusal :=
  nxt (each (List.range 7) (fun r s => let f : Fld := ⟨0x04C + 4 * r, 0, 8⟩; s.fset memP f (s.fget memP f - 1)) s)

/-- A write of LEAK_T, which restarts the timer; 0 is stored as 1 (R308, R319). -/
def leakTWrite (v : Nat) (s : State) : State := s.wr (ra memP 0x048) (max 1 (v % 65536))

/-- LEAK_T_WRITE (R308). -/
def execLeakTWrite (v : Word) (s : State) : Host.Outcome State Fault Refusal := nxt (leakTWrite v.toNat s)

/-- UE_STAT.CLEAR (R311). -/
def ueClear (s : State) : State :=
  let s := each (List.range 8) (fun i s => s.wr (ueLog i) 0) s
  s.wr (ra memP 0x090) 0

/-- UE_CLEAR (R311). -/
def execUeClear (s : State) : Host.Outcome State Fault Refusal := nxt (ueClear s)

/-- A write of FLIP_MASK, stored also while the flip mask is disabled (R315). -/
def flipMaskWrite (v : Nat) (s : State) : State := s.wr (ra memP 0x068) (v % 65536)

/-- FLIP_MASK_WRITE (R315). -/
def execFlipMaskWrite (v : Word) (s : State) : Host.Outcome State Fault Refusal := nxt (flipMaskWrite v.toNat s)

/-! Engine memories -/

/-- The address of the byte 0 of a word of an engine's X or Y memory (R298). -/
def engWord (e : Nat) (y : Bool) (w : Nat) : Nat := (164 + 2 * e + bit y) * 65536 + 3 * (w % 8192)

/-- A word of X or Y is written; in the mirrored area of a pool engine it is written in every pool engine (R178, R179, R203). -/
def engMemWrite (e : Eng) (y : Bool) (w v : Nat) (s : State) : State :=
  let bs := bytesLE 3 v
  if inPool s e && decide (4096 ≤ w % 8192) then
    each ((List.finRange 5).filter (fun j => inPool s j)) (fun (j : Eng) s => memWrite (engWord j y w) bs s) s
  else memWrite (engWord e y w) bs s

/-! Recovery from the Ream -/

/-- The bytes that the Ream in force gives for an ECC word, 0 where it names none (R312). -/
def initBytes (s : State) (m w : Nat) : List Byte :=
  let k := eccBytes (regionOf m)
  (List.range k).map (fun i => kget 0 s.sec.init (m * 65536 + w * k + i))

/-- One word is rewritten with its Ream value; a word in the mirrored area of a pool engine by a mirrored write (R312). -/
def restoreWord (m w : Nat) (s : State) : State :=
  let v := initBytes s m w
  if regionOf m = 4 then engMemWrite (Fin.ofNat 5 ((m - 164) / 2)) ((m - 164) % 2 == 1) w (ofLE v) s
  else memWrite (m * 65536 + w * eccBytes (regionOf m)) v s

/-- RELOAD_STAT.BUSY follows the recoveries under way. -/
def reloadShow (s : State) : State := s.setFlag memP reloadBusy (!(s.memPend.isEmpty && s.seq.reload.isEmpty))

/-- The occurrences of events 64 and 69 of a region that wait to be logged: the recovery that they began is reported after them (R397, R401). -/
def reloadCause (region : Nat) (s : State) : List Nat := s.waiting 64 (fun d => d % 8 == region) ++ s.waiting 69 (fun d => regionOf (d + 128) == region)

/-- MEM_RELOADED: the words of a region that wait for recovery are rewritten, and event 66 is raised (R312, R401). -/
def execMemReloaded (region : Fin 7) (s : State) : Host.Outcome State Fault Refusal :=
  let mine := s.memPend.filter (fun p => regionOf p.1 == region.val)
  nxt (if mine.isEmpty then s
  else
    let s := { s with memPend := s.memPend.filter (fun p => regionOf p.1 != region.val) }
    let s := clampAll (each mine (fun p s => restoreWord p.1 p.2 s) s)
    raiseAfter 66 region.val (reloadCause region.val s) (reloadShow (s.fset memP reloadRegion region.val)))

end Sys2Proof.Machine
end

