-- ==== Sys2Proof/Machine/Nv.lean ====
section
/-! DEFINITION. The external flash as bytes, and the NV journal on it: records, their writing and commit, compaction, and the black box (R426, R442 to R445). -/

namespace Sys2Proof.Machine

/-- Page NVS. -/
def nvsP : Nat := 0x005
/-- NV_STAT, journal valid (R447). -/
def nvValid : Fld := ⟨0x040, 0, 1⟩
/-- NV_STAT, slot in force. -/
def nvSlotF : Fld := ⟨0x040, 1, 1⟩
/-- NV_STAT.BUSY. -/
def nvBusy : Fld := ⟨0x040, 2, 1⟩
/-- NV_STAT, compacting. -/
def nvCompacting : Fld := ⟨0x040, 3, 1⟩
/-- NV_STAT.FULL. -/
def nvFull : Fld := ⟨0x040, 4, 1⟩
/-- REC_STAT.BUSY. -/
def recBusy : Fld := ⟨0x054, 0, 1⟩
/-- REC_STAT.RESULT. -/
def recResult : Fld := ⟨0x054, 1, 2⟩

/-! Flash -/

/-- A byte of the flash; an erased one is 0xFF (R426). -/
def flashByte (s : State) (a : Nat) : Byte := kget 0xFF#8 s.sec.flash a

/-- Bytes of the flash. -/
def flashBytes (s : State) (a n : Nat) : List Byte := (List.range n).map (fun i => flashByte s (a + i))

/-- Bytes are programmed at an address of the flash. -/
def flashPut (a : Nat) (bs : List Byte) (s : State) : State :=
  let m := (bs.foldl (fun (x : KMap Byte × Nat) b => (kput 0xFF#8 x.1 x.2 b, x.2 + 1)) (s.sec.flash, a)).1
  { s with sec := { s.sec with flash := m } }

/-- A range of the flash is erased. -/
def flashErase (a n : Nat) (s : State) : State :=
  { s with sec := { s.sec with flash := s.sec.flash.filter (fun e => decide (e.1 < a ∨ a + n ≤ e.1)) } }

/-- The bytes of a number, highest first. -/
def bytesBE (k v : Nat) : List Byte := (bytesLE k v).reverse

/-! The journal -/

/-- The flash address of a journal slot (R426). -/
def nvBase (slot : Nat) : Nat := 0x400000 + 0x10000 * slot

/-- A slot is valid: its MAGIC and its commit marker are exact (R442; log entry 28). -/
def nvSlotOk (s : State) (slot : Nat) : Bool :=
  ofBE (flashBytes s (nvBase slot) 4) == 0x4E564A31 && ofBE (flashBytes s (nvBase slot + 28) 4) == 0x3CA55AC3

/-- GEN of a slot. -/
def nvGen (s : State) (slot : Nat) : Nat := ofBE (flashBytes s (nvBase slot + 4) 4)

/-- The slot in force: the valid one with the higher GEN (R442). -/
def nvInForce (s : State) : Option Nat :=
  match nvSlotOk s 0, nvSlotOk s 1 with
  | true, true => some (if nvGen s 0 < nvGen s 1 then 1 else 0)
  | true, false => some 0
  | false, true => some 1
  | false, false => none

/-- A record as it lies in the journal (R443). -/
structure NvRec where
  typ : Nat
  key : Nat
  cnt : Nat
  payload : List Byte
  /-- The header and the padded payload with its CRC. -/
  body : List Byte
  committed : Bool
  deriving DecidableEq, Repr

/-- A length padded to a multiple of 4 (R443). -/
def pad4 (n : Nat) : Nat := (n + 3) / 4 * 4

/-- The bytes that a record of a payload length takes (R443). -/
def recBytes (len : Nat) : Nat := 8 + pad4 len + 8

/-- The records from an offset of a slot on, and the offset at which the next is appended; `fuel` bounds their number. -/
def nvScan (s : State) (slot : Nat) : Nat → Nat → List NvRec × Nat
  | 0, off => ([], off)
  | fuel + 1, off =>
    let h := flashBytes s (nvBase slot + off) 8
    let w := ofBE h
    let len := bits w 40 16
    if len = 0 ∨ 2048 < len ∨ 0x10000 < off + recBytes len then ([], off)
    else
      let raw := flashBytes s (nvBase slot + off) (8 + pad4 len)
      let crc := flashBytes s (nvBase slot + off + 8 + pad4 len) 4
      let cw := ofBE (flashBytes s (nvBase slot + off + 12 + pad4 len) 4)
      let r : NvRec := { typ := bits w 56 8, key := bits w 24 16, cnt := bits w 0 24, payload := (raw.drop 8).take len, body := raw ++ crc,
                         committed := crc32 raw == ofBE crc && cw == 0xC35AA53C }
      let (l, e) := nvScan s slot fuel (off + recBytes len)
      (r :: l, e)

/-- The records of the journal in force, and the offset of the next. -/
def nvRecords (s : State) : List NvRec × Nat :=
  match nvInForce s with
  | some k => nvScan s k 4096 32
  | none => ([], 32)

/-- The record of a list with the highest count among committed ones of a TYPE and KEY (R443). -/
def holdingIn (l : List NvRec) (typ key : Nat) : Option NvRec :=
  (l.filter (fun r => r.committed && r.typ == typ && r.key == key)).foldl (fun a r =>
    match a with
    | some x => if x.cnt ≤ r.cnt then some r else some x
    | none => some r) none

/-- The record that holds for a TYPE and KEY (R443). -/
def nvHolding (s : State) (typ key : Nat) : Option NvRec := holdingIn (nvRecords s).1 typ key

/-- The holding records of a journal, one of each TYPE and KEY. -/
def nvHoldings (l : List NvRec) : List NvRec := l.filter (fun r => holdingIn l r.typ r.key == some r)

/-- NV_STAT and NV_GEN follow the journal (R447). -/
def nvShow (s : State) : State :=
  match nvInForce s with
  | none => ((s.fset nvsP ⟨0x040, 0, 2⟩ 0).fset nvsP ⟨0x040, 5, 13⟩ 0).wr (ra nvsP 0x044) 0
  | some k =>
    let c := s.nv.compact != 0
    let s := ((s.setFlag nvsP nvValid true).fset nvsP nvSlotF k).setFlag nvsP nvBusy (!s.nv.wait.isEmpty || c || !s.nv.queue.isEmpty)
    let s := s.setFlag nvsP nvCompacting c
    (s.fset nvsP ⟨0x040, 5, 13⟩ ((nvRecords s).2 / 16)).wr (ra nvsP 0x044) (nvGen s k)

/-- The header of a slot, its commit marker last (R442). -/
def nvHeader (slot gen : Nat) (s : State) : State :=
  let s := flashPut (nvBase slot) (bytesBE 4 0x4E564A31 ++ bytesBE 4 gen ++ List.replicate 20 0xFF#8) s
  flashPut (nvBase slot + 28) (bytesBE 4 0x3CA55AC3) s

/-- The journal is formatted: slot 0 is erased and written with GEN 1, event 112 (R442). -/
def nvFormat (s : State) : State := raise 112 3 (nvHeader 0 1 (flashErase (nvBase 0) 0x10000 s))

/-- Committed records are programmed one after another from an address. -/
def nvCopy : Nat → List NvRec → State → State
  | _, [], s => s
  | a, r :: l, s => nvCopy (a + r.body.length + 4) l (flashPut a (r.body ++ bytesBE 4 0xC35AA53C) s)

/-- Steps 1 and 2 of a compaction that is due, once no record awaits its commit word: the other slot is erased and takes the holding records (R444). -/
def nvCompactGo (s : State) : State :=
  match nvInForce s with
  | some k =>
    if s.nv.compact = 1 ∧ s.nv.wait = [] ∧ s.nv.hold = false then
      let tgt := nvBase (1 - k)
      let s := nvCopy (tgt + 32) (nvHoldings (nvRecords s).1) (flashErase tgt 0x10000 s)
      nvShow { s with nv := { s.nv with compact := 2 } }
    else s
  | none => s

/-- The body of a record is written behind the journal's last (R443). -/
def nvBody (slot typ key : Nat) (payload : List Byte) (s : State) : State :=
  let len := payload.length
  let (l, off) := nvRecords s
  let cnt := l.foldl (fun n r => max n r.cnt) 0 + 1
  let raw := bytesBE 8 (typ % 256 * 2 ^ 56 + len % 65536 * 2 ^ 40 + key % 65536 * 2 ^ 24 + cnt % 2 ^ 24)
    ++ payload ++ List.replicate (pad4 len - len) 0#8
  let body := raw ++ bytesBE 4 (crc32 raw)
  let s := flashPut (nvBase slot + off) body s
  nvShow { s with nv := { s.nv with wait := s.nv.wait ++ [(typ, key, nvBase slot + off + body.length)] } }

/-- A record is requested: its body is written, or it waits for a compaction, which it begins where it would not fit, or for VAUX; false where the holding records leave no room (R443, R444, R460). -/
def nvAppend (typ key : Nat) (payload : List Byte) (s : State) : Bool × State :=
  match nvInForce s with
  | none => (false, s)
  | some k =>
    let (l, off) := nvRecords s
    let fits := decide (off + recBytes payload.length ≤ 0x10000)
    let held : Nat := (nvHoldings l).foldl (fun (n : Nat) r => n + r.body.length + 4) 32
    if !fits && decide (61440 < held) then (false, raise 114 0 (s.setFlag nvsP nvFull true))
    else if fits && s.nv.compact == 0 && !s.nv.hold then (true, nvBody k typ key payload s)
    else (true, nvCompactGo (nvShow { s with nv := { s.nv with
      queue := s.nv.queue ++ [(typ, key, payload)], compact := if fits then s.nv.compact else max 1 s.nv.compact } }))

/-- The records that have waited are requested again, in order (R444). -/
def nvFlush (s : State) : State :=
  let q := s.nv.queue
  each q (fun x s => (nvAppend x.1 x.2.1 x.2.2 s).2) (nvShow { s with nv := { s.nv with queue := [] } })

/-- Steps 3 and 4 of a compaction: the header with its commit marker last, and event 116; the records that have waited follow (R444). -/
def nvCompactEnd (s : State) : State :=
  match nvInForce s with
  | some k =>
    let gen := nvGen s k + 1
    nvFlush (raise 116 (gen % 128) (nvHeader (1 - k) gen { s with nv := { s.nv with compact := 0 } }))
  | none => s

/-- VAUX falls below 2.9 V, or is good again: while it is low no new flash command is issued, and what waits follows (R460). -/
def nvHold (low : Bool) (s : State) : State :=
  let s := { s with nv := { s.nv with hold := low } }
  if low then s else nvCompactGo (if s.nv.compact = 0 then nvFlush s else s)

/-- The commit word of the oldest waiting record is written, and the record holds (R443, R445). -/
def nvCommit (s : State) : State :=
  match s.nv.wait with
  | [] => s
  | (typ, key, a) :: r =>
    let s := flashPut a (bytesBE 4 0xC35AA53C) { s with nv := { s.nv with wait := r } }
    let host := typ != 1 && typ != 3 && typ != 6
    let s := onlyIf host (fun s => (s.setFlag nvsP recBusy false).fset nvsP recResult 1) s
    let s := nvShow s
    if typ = 6 then raise 115 key s else s

/-- NV_RECORD_COMMIT: the flash port's work comes to its next commit, of a record or of a compaction; records wait in the low-power state, and while VAUX is low (R328 step 4, R443, R444, R460). -/
def execNvRecordCommit (s : State) : Host.Outcome State Fault Refusal :=
  nxt (if 2 ≤ s.fget 0x001 ⟨0x058, 0, 2⟩ ∨ s.nv.hold = true then s
  else if s.nv.wait.isEmpty then (if s.nv.compact = 2 then nvCompactEnd s else s)
  else nvCompactGo (nvCommit s))

/-- VAUX_LOW: VAUX falls below 2.9 V; every LB output is forced off, no new flash command is issued, and event 464 is raised (R238, R460). -/
def execVauxLow (s : State) : Host.Outcome State Fault Refusal := nxt (raise 464 0 (lasForceAll (nvHold true (s.setFlag lasP lasVaux false))))

/-- VAUX_OK: VAUX above 3.0 V for 10 ms, and lasers resume as their states allow, as do the flash commands (R238, R460). -/
def execVauxOk (s : State) : Host.Outcome State Fault Refusal := nxt (lasSettle (nvHold false (s.setFlag lasP lasVaux true)))

/-! Host records -/

/-- TYPE and KEY of REC_SEL. -/
def recSel (s : State) : Nat × Nat := let w := s.rd (ra nvsP 0x048); (bits w 0 8, bits w 8 16)

/-- The bytes of the record buffer, laid out as SEC.DL_DATA (R447). -/
def nvBuffer (s : State) (n : Nat) : List Byte :=
  ((List.range 512).flatMap (fun i => bytesBE 4 (kget 0 s.nv.buf i).toNat)).take n

/-- REC_CMD.WRITE: a record from the buffer, refused for the types that the device writes; one more while the last is being written is ignored (R443, R447; log entry 29). -/
def recWriteOp (s : State) : State :=
  let (typ, key) := recSel s
  if s.flag nvsP recBusy then ignored nvsP 0x050 16 s
  else if typ = 1 ∨ typ = 3 ∨ (6 ≤ typ ∧ typ < 0x40) then s.fset nvsP recResult 2
  else
    let (ok, s) := nvAppend typ key (nvBuffer s (clampN 1 2048 (s.fget nvsP ⟨0x04C, 0, 12⟩))) s
    if ok then (s.setFlag nvsP recBusy true).fset nvsP recResult 0 else s.fset nvsP recResult 2

/-- REC_WRITE (R443). -/
def execRecWrite (s : State) : Host.Outcome State Fault Refusal := nxt (recWriteOp s)

/-- REC_CMD.READ: the holding record into the buffer (R443, R447). -/
def recReadOp (s : State) : State :=
  let (typ, key) := recSel s
  match nvHolding s typ key with
  | none => s.fset nvsP recResult 3
  | some r =>
    let ws : List (List Byte × Nat) := (chunk 4 512 (r.payload ++ List.replicate 3 0#8)).zip (List.range ((r.payload.length + 3) / 4))
    let s := { s with nv := { s.nv with buf := ws.foldl (fun (m : KMap Word) (x : List Byte × Nat) => kput 0 m x.2 (BitVec.ofNat 32 (ofBE x.1))) s.nv.buf } }
    (s.fset nvsP recResult 1).fset nvsP ⟨0x054, 4, 12⟩ r.payload.length

/-- REC_READ (R443). -/
def execRecRead (s : State) : Host.Outcome State Fault Refusal := nxt (recReadOp s)

/-- A black-box record of the last 256 log entries, oldest first, no more than one in BB_HOLD seconds (R443, R445; log entry 29). -/
def blackboxOp (s : State) : State :=
  let now := s.time.dtc.toNat / 65536
  let held := match s.nv.bbLast with
    | some t => decide (now < t + 156250000 * s.fget nvsP ⟨0x070, 0, 16⟩)
    | none => false
  if held || s.shut || s.nv.recent.isEmpty then s
  else
    let k := s.nv.bbKey
    let (ok, s) := nvAppend 6 k (s.nv.recent.reverse.flatMap (fun w => bytesBE 8 w.toNat)) s
    if ok then { s with nv := { s.nv with bbKey := (k + 1) % 4, bbLast := some now } } else s

/-- BLACKBOX (R445). -/
def execBlackbox (s : State) : Host.Outcome State Fault Refusal := nxt (blackboxOp s)

/-! Device records -/

/-- A BOOT record: preferred slot, boot count and fallback count (R443; log entry 28). -/
def bootRecord (pref boots falls : Nat) (s : State) : State :=
  (nvAppend 1 0 (bytesBE 1 pref ++ [0#8] ++ bytesBE 2 boots ++ bytesBE 2 falls) s).2

/-- The slot preferred, the boot count and the fallback count of the newest committed BOOT record (R432, R443). -/
def bootState (s : State) : Nat × Nat × Nat :=
  match nvHolding s 1 0 with
  | some r => (ofBE (r.payload.take 1) % 2, ofBE ((r.payload.drop 2).take 2), ofBE ((r.payload.drop 4).take 2))
  | none => (0, 0, 0)

/-- A soft repair of a macro is recorded: its spares used, columns in bits [3:0] and rows in [5:4] (R317, R443; log entry 28). -/
def repairRecord (m v : Nat) (s : State) : State := (nvAppend 3 m [BitVec.ofNat 8 v] s).2

end Sys2Proof.Machine
end

