-- ==== Sys2Proof/Machine/Calib.lean ====
section
/-! DEFINITION. Calibration and self-test in service: the background cycle and its commands, foreground calibration, the correction window, lane and macro tests (R210 to R227). -/

namespace Sys2Proof.Machine

/-! The background cycle -/

/-- CAL_LIMITS.RQF_MIN (R226). -/
def rqfMin (s : State) : Nat := s.fget bistP ⟨0x144, 0, 16⟩
/-- CAL_LIMITS.RQF_WARN. -/
def rqfWarn (s : State) : Nat := s.fget bistP ⟨0x144, 16, 16⟩
/-- CAL_EST_B.RQF. -/
def calRqf (n : Nat) : Fld := ⟨0x04C + 0x20 * n, 16, 16⟩

/-- A publication of the cycle, which the next read of CAL_STAT reports (R214). -/
def calFresh (n : Lane) (s : State) : State := s.setCal n (fun c => { c with fresh := true })

/-- The length N of a shadow phase (R213, R226). -/
def shadowLen (s : State) (n : Lane) : Nat := 2 ^ (16 + s.fget bistP ⟨0x040 + 0x20 * n, 1, 3⟩)

/-- An instant of a shadow phase after correction: y of the out slice, x of the slice at its target, and twice the local slope g (R210, R213). -/
def shadowed (s : State) (n : Lane) (p : Nat) (w : Shadow) : Int × Int × Int :=
  let at_ (q : Nat) (r : Int) : Int := correctSample (corrOf s n (nth 0 s.lanes[n].slices (q % 64))) r
  (correctSample (corrOf s n s.cal[n].out) w.y, at_ p w.mid, at_ (p + 1) w.after - at_ (p + 63) w.before)

/-- The sum of a figure over the instants of a shadow phase. -/
def sumOver (l : List (Int × Int × Int)) (f : Int → Int → Int → Int) : Int := sumI (l.map (fun w => f w.1 w.2.1 w.2.2))

/-- A figure of R213 in its 16-bit format: a quotient, rounded as the device does (log entry 23) and held to the format; an open value where the divisor is 0 (log entry 3). -/
def figure16 (k : Nat) (num : Int) (den : Nat) (s : State) : Nat × State :=
  if den = 0 then s.draw 16 else (enc2 16 (clampI (-32768) 32767 (openRound k num den)), s)

/-- OFS_ERR in 1/64 code, GAIN_ERR in 2^-16 and SKEW_ERR in fs over a shadow phase (R213). -/
def estimates (s : State) (n : Lane) (l : List (Int × Int × Int)) : (Nat × Nat × Nat) × State :=
  let (ofs, s) := figure16 12 (64 * sumOver l (fun y x _ => y - x)) l.length s
  let (gain, s) := figure16 13 (65536 * sumOver l (fun y x _ => (y - x) * x)) (sumOver l (fun _ x _ => x * x)).toNat s
  let (skew, s) := figure16 14 (-2000000000000000 * sumOver l (fun y x g => (y - x) * g)) ((sumOver l (fun _ _ g => g * g)).toNat * laneRate s n) s
  ((ofs, gain, skew), s)

/-- a / b is at least the k-th root of 10. -/
def rootTen (k a b : Nat) : Bool := decide (10 * b ^ k ≤ a ^ k)

/-- RQF = round(1000 × log10(Σx² / Σ(y − x)²)), held to 0 … 6,000, and 6,000 where y equals x at every instant (R213). -/
def rqfOf (l : List (Int × Int × Int)) : Nat :=
  let a := (sumOver l (fun _ x _ => x * x)).toNat
  let b := (sumOver l (fun y x _ => (y - x) * (y - x))).toNat
  if b = 0 then 6000 else if rootTen 2000 a b then log10m a b else 0

/-- BG_ESTIMATE_DONE: N instants of the estimate's shadow phase have passed, and the three errors are published (R213, R214). -/
def execBgEstimateDone (n : Lane) (samples : List Shadow) (s : State) : Host.Outcome State Fault Refusal :=
  nxt (if s.fget bistP (calState n) = 1 ∧ samples.length = shadowLen s n then
    let (e, s) := estimates s n (samples.map (shadowed s n (s.fget bistP (calTarget n))))
    let s := s.wr (ra bistP (0x048 + 0x20 * n)) (e.1 + e.2.1 * 65536)
    calFresh n ((s.fset bistP ⟨0x04C + 0x20 * n, 0, 16⟩ e.2.2).fset bistP (calState n) 2)
  else s)

/-- A failed attempt: the first on a slice returns to ESTIMATE, the second retires the slice (R215). -/
def calFailed (n : Lane) (s : State) : State :=
  let k := s.fget bistP (calAttempt n)
  let s := s.fsat bistP (calAttempt n) 1
  if k = 0 then calStart n s else calCheck n (wmkRxBad n (retire n s.cal[n].out s))

/-- CAL_VERIFY as an operation: CAL_PEND becomes the out slice's correction, and the slice shadows again; ignored with a record in any state but EST_READY (R211, R214). -/
def calVerifyOp (n : Lane) (s : State) : State :=
  if s.fget bistP (calState n) = 2 then (setCorr n s.cal[n].out (s.rd (calPend n)) s).fset bistP (calState n) 3
  else ignored bistP (0x054 + 0x20 * n) 16 s

/-- CAL_VERIFY (R214). -/
def execCalVerify (n : Lane) (s : State) : Host.Outcome State Fault Refusal := nxt (calVerifyOp n s)

/-- The lowest RQF verified in the round: after the round's first swap RQF_MIN_RND, until then what that swap will show (R218; log entry 30). -/
def roundMin (n : Lane) (q : Nat) (s : State) : State :=
  if s.cal[n].round = 0 then s.setCal n (fun c => { c with roundLow := min c.roundLow q })
  else s.fset bistP (calMin n) (min q (s.fget bistP (calMin n)))

/-- BG_VERIFY_DONE: N instants of the verify's shadow phase have passed, and the figure is published; one below RQF_MIN is a failed attempt (R213 to R215, R218). -/
def execBgVerifyDone (n : Lane) (samples : List Shadow) (s : State) : Host.Outcome State Fault Refusal :=
  nxt (if s.fget bistP (calState n) = 3 ∧ samples.length = shadowLen s n then
    let q := rqfOf (samples.map (shadowed s n (s.fget bistP (calTarget n))))
    let s := roundMin n q (calFresh n ((s.fset bistP (calRqf n) q).fset bistP (calState n) 4))
    if q < rqfMin s then calFailed n s else s
  else s)

/-- CAL_SWAP as an operation: the swap is asked for, or the attempt has failed; ignored with a record in any state but VER_READY (R214 to R216). -/
def calSwapOp (n : Lane) (s : State) : State :=
  if s.fget bistP (calState n) = 4 then
    if s.fget bistP (calRqf n) < rqfMin s then calFailed n s else s.fset bistP (calState n) 5
  else ignored bistP (0x054 + 0x20 * n) 16 s

/-- CAL_SWAP (R216). -/
def execCalSwap (n : Lane) (s : State) : Host.Outcome State Fault Refusal := nxt (calSwapOp n s)

/-- SLICE_SWAP: at a frame boundary the out slice takes the target position, the one that filled it goes out, and the next cycle begins (R76, R216 to R218; log entry 30). -/
def execSliceSwap (n : Lane) (s : State) : Host.Outcome State Fault Refusal :=
  nxt (if s.fget bistP (calState n) = 5 then
    let p := s.fget bistP (calTarget n)
    let incoming := s.cal[n].out
    let outgoing := nth 0 s.lanes[n].slices p
    let q := s.fget bistP (calRqf n)
    let s := s.setLane n (fun l => { l with slices := modNth l.slices p (fun _ => incoming) })
    let s := ((s.fset (lrxP n) adcOut outgoing).fadd (lrxP n) adcSwaps 1).fset bistP (calTarget n) (p + 1)
    let s := onlyIf (s.cal[n].round == 0) (fun s => s.fset bistP (calMin n) (min s.cal[n].roundLow q)) s
    let t := tempOf s (n.val / 2)
    let s := s.setCal n (fun c => { c with
      out := outgoing, round := (c.round + 1) % 65, roundLow := 6000, rqfLast := q, fastLeft := c.fastLeft - 1,
      tRef := match c.tRef with | some r => some r | none => some t })
    let s := (s.setFlag bistP (calFast n) (s.cal[n].fastLeft != 0)).fset bistP (calAttempt n) 0
    let s := addCtr (cLane n 0x014) 1 s
    let s := if q < rqfWarn s then raise 24 n s else s
    calStart n s
  else s)

/-- A read of CAL_STAT: READY reads 1 once after a publication (R214). -/
def calStatRead (n : Lane) (s : State) : State :=
  (s.setFlag bistP (calReady n) s.cal[n].fresh).setCal n (fun c => { c with fresh := false })

/-- CAL_STAT_READ (R214). -/
def execCalStatRead (n : Lane) (s : State) : Host.Outcome State Fault Refusal := nxt (calStatRead n s)

/-! Foreground calibration -/

/-- FG_REQ as an operation: it begins while LRXn or LFMn is parked, and is else ignored with a record (R219). -/
def fgReqOp (n : Lane) (s : State) : State :=
  if (s.parked (lrxP n) || s.parked (lfmP n)) && !s.cal[n].fg && !s.bad (lrxP n) && !(s.ist.kind == 1 && s.ist.unit == n.val) then fgBegin n s
  else ignored bistP (0x054 + 0x20 * n) 16 s

/-- FG_REQ (R219). -/
def execFgReq (n : Lane) (s : State) : Host.Outcome State Fault Refusal := nxt (fgReqOp n s)

/-- What steps 2 to 5 find: failed slices are retired, the second marking LRXn, and a loopback with too many errors marks LTXn where LRXn is usable (R220, R224). -/
def lanePass (n : Lane) (failed : List Nat) (loopBad : Bool) (s : State) : State :=
  let s := wmkRxBad n (each (failed.filter (fun x => decide (x < 65) && s.cal[n].retired != some x)) (fun x s => retire n x s) s)
  if loopBad && !s.bad (lrxP n) && !s.bad (ltxP n) then raise 25 (16 + n.val) ((markBad (ltxP n) s).fset bistP ⟨0x14C, 8 + n, 1⟩ 1) else s

/-- The slice that serves as x in step 4: S64, or where it has failed the one of the highest figure, the lowest of equal ones (R219, R220). -/
def refSlice (failed rqfs : List Nat) : Nat :=
  if 64 ∈ failed then (List.range 64).foldl (fun b i => if nth 0 rqfs b < nth 0 rqfs i then i else b) 0 else 64

/-- The slices that fail: at the check of step 2, or with a figure of step 4 below RQF_MIN, against S64 or against the slice that takes its place (R220). -/
def slicesFailed (s : State) (failed rqfs again : List Nat) : List Nat :=
  let x := refSlice failed rqfs
  let l := if x = 64 then rqfs else again
  (failed ++ (List.range 65).filter (fun i => i != x && decide (nth 6000 l i < rqfMin s))).eraseDups

/-- Step 5 finds more than one symbol error per 2^20 symbols of the 8 ms that it checks (R219, R220). -/
def loopFails (s : State) (n : Lane) (errors : Nat) : Bool := decide (laneRate s n * 8 < errors * 2 ^ 20 * 1000)

/-- FOREGROUND_CAL_DONE: the corrections found, the failures, the slice map, and signal detection again from LOS = 1; a new out slice has no failed attempt (R215, R219, R220). -/
def execForegroundCalDone (n : Lane) (corrs failed rqfs again : List Nat) (errors : Nat) (s : State) : Host.Outcome State Fault Refusal :=
  nxt (if s.cal[n].fg then
    let s := each (List.range 65) (fun i s => setCorr n i (nth 0 corrs i) s) s
    let s := lanePass n (slicesFailed s failed rqfs again) (loopFails s n errors) s
    let (slices, out) := mapWithout (List.range 64) 64 s.cal[n].retired
    let s := onlyIf (out != s.cal[n].out) (fun s => s.fset bistP (calAttempt n) 0) s
    let s := (s.setCal n (fun c => { c with fg := false, out := out })).setLane n (fun l => { l with slices := slices, fig := { l.fig with below := 0, above := 0 } })
    calCheck n (s.fset (lrxP n) adcOut out)
  else s)

/-- A write of CORR_DATA: the slice that CORR_ADDR names takes a word while the lane is parked or not running; else it is discarded with a record (R211, R226). -/
def corrDataOp (n : Lane) (v : Nat) (s : State) : State :=
  if !s.running n || s.parked (lrxP n) || s.parked (lfmP n) then setCorr n (s.fget bistP ⟨0x058 + 0x20 * n, 0, 7⟩) v s
  else ignored bistP (0x05C + 0x20 * n) 17 s

/-- CORR_DATA_WRITE (R211). -/
def execCorrDataWrite (n : Lane) (v : Word) (s : State) : Host.Outcome State Fault Refusal := nxt (corrDataOp n v.toNat s)

/-! In-service tests -/

/-- CAP3 captures into storage that takes in the save window (R223, R417). -/
def windowArmed (s : State) : Bool :=
  let st := s.fget 0x01B capStat
  (st == 1 || st == 2) && !s.flag 0x01B ⟨0x040, 3, 1⟩

/-- One word of a block is written to its copy in the save window, with check bits of its own; an uncorrectable one stays so. The copy stands in the block's place, where every access finds it, and in the window's (R224, R315; log entry 31). -/
def copyOut (m w : Nat) (s : State) : State :=
  let k := eccBytes (regionOf m)
  let a := m * 65536 + w * k
  let e := if s.isUe a k then 0b00011#5 else 0#5
  flipSpent 0 (s.putBytes a ((s.fetchN a k).map (fun b => b ^^^ flipData s 0)) (e ^^^ flipCheck s 0))

/-- One word of a block is written back from its copy, which the save window keeps (R224, R315; log entry 31). -/
def copyBack (m w : Nat) (s : State) : State :=
  let k := eccBytes (regionOf m)
  let a := m * 65536 + w * k
  let z := saveWindow * 65536 + w * k
  let e := if s.isUe a k then 0b00011#5 else 0#5
  let s := each (List.range k) (fun i s => s.putByte (z + i) (s.byte (a + i)) (s.chkErr (a + i))) s
  let s := each (List.range k) (fun i s => { s with wflag := kput (devInit (eccBase (z + i))) s.wflag (eccBase (z + i)) true }) s
  store a (s.fetchN a k) e s

/-- A memory block is copied to the save window, or back from it (R224). -/
def copyBlock (word : Nat → Nat → State → State) (m : Nat) (s : State) : State := each (List.range (blockWords m)) (word m) s

/-- Whether the lane that a test names is idle (R223). -/
def istIdle (s : State) (n : Lane) : Bool := !mapEn (s.mapOf n) || [lrxP n, ltxP n, lfmP n].all (fun p => s.parked p)

/-- A start of an in-service test is refused (R223). -/
def istRefuse (s : State) : State := ignored bistP 0x154 19 (s.fset bistP istResult 5)

/-- A write of IST_CTRL: KIND and UNIT are stored, and START begins the test they name or is refused (R223, R224; log entry 31). -/
def istStartOp (v : Nat) (s : State) : State :=
  let s := s.wr (ra bistP 0x154) (v % 4096)
  let u := bits v 2 10
  if !tb v 12 then s
  else if s.ist.kind ≠ 0 then istRefuse s
  else if v % 4 = 1 then
    if 8 ≤ u ∨ istIdle s (Fin.ofNat 8 u) = false ∨ windowArmed s = true then istRefuse s
    else
      let n : Lane := Fin.ofNat 8 u
      ((istSaveLane n s).setLane n (fun l => { l with outHold := true })).setFlag bistP istBusy true
  else if v % 4 = 2 then
    if 176 ≤ u ∨ u = saveWindow ∨ windowArmed s = true ∨ s.ist.redirected.isSome = true then istRefuse s
    else (copyBlock copyOut u { s with ist := { s.ist with kind := 2, unit := u } }).setFlag bistP istBusy true
  else istRefuse s

/-- IST_START (R223). -/
def execIstStart (v : Word) (s : State) : Host.Outcome State Fault Refusal := nxt (istStartOp v.toNat s)

/-- The spares of a macro that fuse repair uses, as bits: columns in [3:0], rows in [5:4]. DESIGN CHOICE, log entry 82: of each kind the lowest-numbered ones. -/
def fuseSpares (m : Nat) : Nat :=
  let f := (Config.fuseRepair m).toNat
  2 ^ min 4 (bits f 0 3) - 1 + (2 ^ min 2 (bits f 3 2) - 1) * 16

/-- The spares of a macro that neither fuses nor soft repair use: the columns, then the rows (R317). -/
def sparesLeft (s : State) (m : Nat) : List Nat × List Nat :=
  let free := (List.range 6).filter (fun i => !tb (fuseSpares m) i && !tb (kget 0 s.rep m) i)
  (free.filter (fun i => decide (i < 4)), free.filter (fun i => decide (4 ≤ i)))

/-- A soft repair of a macro: one more unused spare, a column or a row as the device finds, recorded and reported with event 70; false where no spare is left (R221, R225, R317, R319; log entries 3 and 82). -/
def softRepair (m : Nat) (s : State) : Bool × State :=
  let (c, s) := s.draw 1
  let (cols, rows) := sparesLeft s m
  match (if c = 0 then cols ++ rows else rows ++ cols).head? with
  | none => (false, s)
  | some i =>
    let v := kget 0 s.rep m + 2 ^ i
    (true, raise 70 (regionOf m) (repairRecord m (v % 64) { s with rep := kput 0 s.rep m v }))

/-- A macro is beyond repair, and BIST_HOST.UNREP counts it (R225, R226, R319). -/
def markUnrep (m : Nat) (s : State) : State :=
  let s := { s with rep := kput 0 s.rep m (setBits (kget 0 s.rep m) 6 1 1) }
  s.fset bistP ⟨0x150, 24, 8⟩ (min 255 ((List.range 176).filter (fun m => s.unrep m)).length)

/-- A macro test finds its macro beyond repair: the redirection stays, with event 25 (R225). -/
def macroGone (m : Nat) (s : State) : State :=
  istEnd 3 (raise 25 (5 * 16 + regionOf m) (markUnrep m { s with ist := { s.ist with redirected := some m } }))

/-- IST_DONE: the test ends, what it saved is restored, and its result is reported (R220, R224, R225; log entry 31). -/
def execIstDone (outcome : TestOutcome) (s : State) : Host.Outcome State Fault Refusal :=
  match outcome with
  | .lane failed rqfs again errors =>
    nxt (if s.ist.kind = 1 then
      let n : Lane := Fin.ofNat 8 s.ist.unit
      let gone := slicesFailed s failed rqfs again
      let bad := loopFails s n errors
      let s := lanePass n gone bad s
      istEnd (if gone.isEmpty && !bad then 1 else 3) (calCheck n (istRestoreLane n s))
    else s)
  | .memPass => nxt (if s.ist.kind = 2 then istEnd 1 (copyBlock copyBack s.ist.unit s) else s)
  | .memRepaired =>
    nxt (if s.ist.kind = 2 then
      let m := s.ist.unit
      let (ok, t) := softRepair m s
      if ok then istEnd 2 (copyBlock copyBack m t) else macroGone m t
    else s)
  | .memFail => nxt (if s.ist.kind = 2 then macroGone s.ist.unit s else s)

end Sys2Proof.Machine
end

