-- ==== Sys2Proof/Machine/Event.lean ====
section
/-! DEFINITION. The event log and its registers: grants, losses, reading and popping, clears and forced occurrences, and INT_N's part of the event logic (R384 to R395, R403, R445). Raising an event is in Machine/Ops.lean. -/

namespace Sys2Proof.Machine

/-- Page EVT. -/
def evtP : Nat := 0x003
/-- EVT_CTRL.HIGH_THR (R403). -/
def highThr : Fld := ⟨0x040, 0, 11⟩
/-- LOG_STAT.EMPTY_RD. -/
def logEmpty : Fld := ⟨0x044, 11, 1⟩

/-- The entries of the ring (R391). -/
def ringSize : Nat := 1024

/-- A log entry (R390). -/
def logEntry (seq ev detail dtc : Nat) : Nat :=
  seq % 2 ^ 32 * 2 ^ 32 + ev % 512 * 2 ^ 23 + detail % 128 * 2 ^ 16 + dtc / 160 % 65536

/-- An entry is written to the next place of the ring and takes the next SEQ; the count that rises to HIGH_THR raises event 4 (R390, R395). -/
def logWrite (ev detail : Nat) (s : State) : State :=
  let e := s.evt
  let w := logEntry e.seq ev detail (s.time.dtc.toNat / 65536)
  let i := (e.head + e.unread) % ringSize
  let s := memWrite (174 * 65536 + 8 * i) (bytesLE 8 w) s
  let s := { s with
    evt := { s.evt with unread := e.unread + 1, seq := (e.seq + 1) % 2 ^ 32, bad := s.evt.bad.filter (fun b => b != i) },
    nv := { s.nv with recent := (BitVec.ofNat 64 w :: s.nv.recent).take 256 } }
  let s := trcEvent w (addCtr 0 1 s)
  if e.unread + 1 = s.fget 0x003 highThr ∧ e.highArmed = true then
    raise 4 0 { s with evt := { s.evt with highArmed := false } }
  else s

/-- The EVT_LOSS entry, where losses stand and an entry is free: event 2 with the requests lost since the one before, clipped to 127 (R393). -/
def lossEntry (s : State) : State :=
  if s.evt.lossSince = 0 ∨ ringSize ≤ s.evt.unread then s
  else
    let d := min 127 s.evt.lossSince
    let s := { s with evt := { s.evt with lossSince := 0, stat := s.evt.stat ||| 4 } }.fsat 0x000 evtCount 1
    each (boundTo s 5 2) (fireWith addCtr) (logWrite 2 d s)

/-- Thermal shutdown has been logged, and a source other than THM and the event logic writes no entry any more (R401). -/
def afterShut (s : State) (ev : Nat) : Bool :=
  s.shut && !(decide (48 ≤ ev ∧ ev < 52) || ev == 2 || ev == 4) && !s.evt.queue.any (fun r => r.ev == 51)

/-- The request of a source that the arbiter may grant: its oldest, where no request whose entry must come first still waits (R390, R397, R398, R401). -/
def grantable (s : State) (ev : Nat) : Option EvReq :=
  match s.evt.queue.find? (fun r => r.ev == ev && !afterShut s ev) with
  | none => none
  | some r => if s.evt.queue.any (fun q => r.after.contains q.id) then none else some r

/-- Whether a valid BB_EVT register names an event (R445). -/
def blackboxEvent (s : State) (ev : Nat) : Bool :=
  (List.range 4).any (fun i => let w := s.rd (ra nvsP (0x060 + 4 * i)); tb w 15 && w % 512 == ev)

/-- A grant: the request is written, behind an EVT_LOSS entry that is due, or lost where the log is full; an event that BB_EVT names asks for a black-box record (R390, R392, R393, R445; log entry 32). -/
def logGrantOp (ev : Nat) (s : State) : State :=
  let s := lossEntry s
  match grantable s ev with
  | none => s
  | some r =>
    let s := { s with evt := { s.evt with queue := s.evt.queue.erase r } }
    let s :=
      if s.evt.unread < ringSize then logWrite r.ev r.detail s
      else addCtr 2 1 ({ s with evt := { s.evt with lossSince := s.evt.lossSince + 1 } }.fsat 0x003 evtLost 1)
    if blackboxEvent s ev then blackboxOp s else s

/-- LOG_GRANT (R390). -/
def execLogGrant (ev : Fin 512) (s : State) : Host.Outcome State Fault Refusal := nxt (if s.pwr.hkOn then logGrantOp ev s else s)

/-- A read of LOG_LO, an owner's access for the host: the snapshot of the oldest unread entry, 0xEEEE_EEEE and LAST_ERR cause 4 where its word is uncorrectable; with none, 0 and EMPTY_RD (R301, R391). -/
def logLoReadOp (s : State) : State :=
  if s.evt.unread = 0 then
    (((s.wr (ra 0x003 0x048) 0).wr (ra 0x003 0x04C) 0).setFlag 0x003 logEmpty true)
  else
    let i := s.evt.head
    let (bs, ue, s) := readWord .owner 174 i s
    let w := ofLE bs
    let s := { s with evt := { s.evt with snap := some i } }.setFlag 0x003 logEmpty false
    if ue then lastErr 0x003 0x048 4 false false ((s.wr (ra 0x003 0x048) 0xEEEEEEEE).wr (ra 0x003 0x04C) 0xEEEEEEEE)
    else (s.wr (ra 0x003 0x048) (w % 2 ^ 32)).wr (ra 0x003 0x04C) (w / 2 ^ 32)

/-- LOG_LO_READ (R391). -/
def execLogLoRead (s : State) : Host.Outcome State Fault Refusal := nxt (logLoReadOp s)

/-- A write of LOG_POP: the snapshotted entry is freed where it is still the oldest unread one, and an EVT_LOSS entry that waits is written (R391, R393, R395). -/
def logPopOp (s : State) : State :=
  let e := s.evt
  if e.unread ≠ 0 ∧ e.snap = some e.head then
    let n := e.unread - 1
    lossEntry { s with evt := { e with
      snap := none, head := (e.head + 1) % ringSize, unread := n,
      highArmed := e.highArmed || decide (n + 64 < s.fget 0x003 highThr) } }
  else ignored 0x003 0x050 16 s

/-- LOG_POP (R391). -/
def execLogPop (s : State) : Host.Outcome State Fault Refusal := nxt (logPopOp s)

/-- The events that the bits of a word written to a native address name: an EVT_STAT, EVT_MASK or EVT_FORCE register of a page, or a word of the EVT arrays (R384, R385). -/
def eventsAt (a : Nat) : List Nat :=
  if ra 0x003 0x080 ≤ a ∧ a < ra 0x003 0x100 then List.range' (8 * (a - ra 0x003 0x080) % 512) 32
  else match pageOf (a / 1024) with
    | some (k, i) => eventsOf k i
    | none => []

/-- The events among a window's that a written value names, undefined ones left out. -/
def eventsNamed (a v : Nat) : List Nat :=
  ((eventsAt a).zip (List.range 32)).filterMap (fun x => if tb v x.2 && defined.getLsbD x.1 then some x.1 else none)

/-- What a window of status or mask bits reads (R385). -/
def eventWord (l : List Nat) (v : BitVec 512) : Nat :=
  (l.zip (List.range 32)).foldl (fun a x => a + bit (v.getLsbD x.1) * 2 ^ x.2) 0

/-- A clear of status bits, and then the occurrences that meet it, which win (R385, R389). -/
def evtClearOp (a v : Nat) (meets : List (Nat × Nat)) (s : State) : State :=
  let s := each (eventsNamed a v) (fun e s => { s with evt := { s.evt with stat := s.evt.stat &&& ~~~(BitVec.ofNat 512 (2 ^ e)) } }) s
  each meets (fun m s => raise m.1 m.2 s) s

/-- Whether a native address is a window of status bits. -/
def isStatAddr (a : Nat) : Bool :=
  a % 1024 == 0x00C || decide (ra 0x003 0x080 ≤ a ∧ a < ra 0x003 0x0C0)

/-- EVT_STAT_CLEAR (R389). -/
def execEvtStatClear (addr : BitVec 22) (value : Word) (meets : List (Nat × Nat)) (s : State) : Host.Outcome State Fault Refusal :=
  nxt (if isStatAddr addr.toNat then evtClearOp addr.toNat value.toNat meets s else s)

/-- One mask bit takes a value. -/
def maskBit (e : Nat) (b : Bool) (s : State) : State :=
  let m := BitVec.ofNat 512 (2 ^ e)
  { s with evt := { s.evt with mask := if b then s.evt.mask ||| m else s.evt.mask &&& ~~~m } }

/-- A write of mask bits through a window; bits of no defined source read 0 (R384, R385). -/
def evtMaskOp (a v : Nat) (s : State) : State :=
  each (((eventsAt a).zip (List.range 32)).filter (fun x => defined.getLsbD x.1)) (fun x s => maskBit x.1 (tb v x.2) s) s

/-- A write of EVT_FORCE: each named source has an occurrence of DETAIL 0x7F (R386). -/
def evtForceOp (p v : Nat) (s : State) : State := each (eventsNamed (ra p 0x014) v) (fun e s => raise e 0x7F s) s

/-- EVT_FORCE (R386). -/
def execEvtForce (p : BitVec 12) (v : Word) (s : State) : Host.Outcome State Fault Refusal := nxt (evtForceOp p.toNat v.toNat s)

/-- The event logic holds INT_N asserted: a status bit is set whose mask bit is 0 (R388). -/
def eventInt (s : State) : Bool := (s.evt.stat &&& ~~~s.evt.mask) != 0

end Sys2Proof.Machine
end

