-- ==== Sys2Proof/Machine/Obs.lean ====
section
/-! DEFINITION. The star map: what each point is and how it reads, snapshots, and the points that the trace port sends (R405 to R412, R421, R422). -/

namespace Sys2Proof.Machine

/-- Page OBS. -/
def obsP : Nat := 0x009
/-- POINT_SEL.INDEX (R422). -/
def obsIndex : Fld := ⟨0x044, 0, 18⟩
/-- POINT_SEL.BUF. -/
def obsBuf : Fld := ⟨0x044, 18, 1⟩
/-- SNAP_STAT.BUSY. -/
def snapBusy : Fld := ⟨0x058, 0, 1⟩
/-- SNAP_STAT.REFUSED. -/
def snapRefused : Fld := ⟨0x058, 1, 1⟩
/-- SNAP_STAT.SNAP_SEQ. -/
def snapSeq : Fld := ⟨0x058, 16, 16⟩

/-- Where a point's value comes from (R405 to R407). -/
inductive Point where
  | counter | bin
  /-- A signed field of `w` bits in force. -/
  | tap (page off lsb w : Nat)
  /-- An unsigned field in force. -/
  | setting (page off lsb w : Nat)
  /-- An unsigned, or a signed, field of a register as published. -/
  | gauge (page off lsb w : Nat) (signed : Bool)
  | rqfLast (n : Lane)
  | occupancy
  | nl (n : Nat) (band : Nat) (pending : Bool) (e : Nat)
  | word (m w : Nat)
  | unassigned
  deriving DecidableEq, Repr

/-- The points of line lane n at an offset of its area (R407). -/
def lanePoint (n : Lane) (o : Nat) : Point :=
  if o < 0x00C ∨ (0x010 ≤ o ∧ o < 0x015) ∨ (0x018 ≤ o ∧ o < 0x01C) ∨ (0x020 ≤ o ∧ o < 0x031) ∨ (0x038 ≤ o ∧ o < 0x03B) ∨ (0x040 ≤ o ∧ o < 0x04A) then .counter
  else if o = 0x050 then .rqfLast n
  else if o = 0x051 then .gauge 0x068 (0x044 + 0x20 * n) 16 16 false
  else if o = 0x060 then .gauge (lrxP n) 0x060 0 16 false
  else if o = 0x061 then .gauge (lrxP n) 0x064 0 16 false
  else if o = 0x062 then .gauge (lrxP n) 0x064 16 16 false
  else if o = 0x063 then .gauge 0x001 (0x080 + 4 * n) 0 16 true
  else if o = 0x064 then .gauge 0x001 (0x080 + 4 * n) 16 16 true
  else if 0x080 ≤ o ∧ o < 0x0A9 then .tap (lrxP n) (0x070 + 4 * (o - 0x080)) 0 10
  else if 0x0B0 ≤ o ∧ o < 0x0B5 then .tap (lrxP n) (0x114 + 4 * (o - 0x0B0)) 0 8
  else if 0x0B8 ≤ o ∧ o < 0x0BC then .tap (lrxP n) (0x128 + 4 * ((o - 0x0B8) / 2)) (16 * ((o - 0x0B8) % 2)) 10
  else if o = 0x0BC then .tap (lrxP n) 0x130 0 9
  else if o = 0x0BD then .setting (lrxP n) 0x044 0 5
  else if o = 0x0BE then .setting (lrxP n) 0x044 8 6
  else if o = 0x0BF then .tap (lrxP n) 0x044 16 6
  else if 0x0C0 ≤ o ∧ o < 0x0C7 then .tap (ltxP n) (0x054 + 4 * (o - 0x0C0)) 0 10
  else if o = 0x0C7 then .setting (ltxP n) 0x048 0 6
  else if o = 0x0C8 then .setting (ltxP n) 0x04C 1 3
  else if 0x100 ≤ o ∧ o < 0x240 then .nl n ((o - 0x100) / 64) false (o % 64)
  else if 0x240 ≤ o ∧ o < 0x380 then .nl n ((o - 0x240) / 64) true (o % 64)
  else .unassigned

/-- The points of host lane h at an offset of its area (R407). -/
def hostPoint (h o : Nat) : Point :=
  if o < 5 then .counter
  else if o = 0x08 then .gauge (hrxP h) 0x058 0 16 false
  else if 0x10 ≤ o ∧ o < 0x28 then .tap (hrxP h) (0x070 + 4 * (o - 0x10)) 0 10
  else if o = 0x28 then .tap (hrxP h) 0x0D0 0 8
  else if 0x29 ≤ o ∧ o < 0x2D then .tap (hrxP h) (0x0D4 + 4 * ((o - 0x29) / 2)) (16 * ((o - 0x29) % 2)) 10
  else if o = 0x2D then .setting (hrxP h) 0x044 0 5
  else if o = 0x2E then .setting (hrxP h) 0x044 8 6
  else if 0x30 ≤ o ∧ o < 0x36 then .tap (htxP h) (0x050 + 4 * (o - 0x30)) 0 8
  else if o = 0x36 then .setting (htxP h) 0x044 0 5
  else .unassigned

/-- The point of an index (R407). -/
def pointOf (i : Nat) : Point :=
  if i < 3 ∨ (0x08 ≤ i ∧ i < 0x10) ∨ (0x10 ≤ i ∧ i < 0x2C) ∨ (0x30 ≤ i ∧ i < 0x36) ∨ (0x40 ≤ i ∧ i < 0x54) ∨ (0x80 ≤ i ∧ i < 0x100) then .counter
  else if i = 0x100 then .gauge 0x001 0x070 0 16 false
  else if i = 0x101 then .gauge 0x001 0x070 16 16 false
  else if i = 0x102 then .gauge 0x001 0x064 16 16 false
  else if i = 0x103 then .occupancy
  else if 0x400 ≤ i ∧ i < 0x800 then .bin
  else if 0x08000 ≤ i ∧ i < 0x10000 then lanePoint (Fin.ofNat 8 ((i - 0x08000) / 0x1000)) (i % 0x1000)
  else if 0x10000 ≤ i ∧ i < 0x11000 then hostPoint ((i - 0x10000) / 0x100) (i % 0x100)
  else if 0x20000 ≤ i ∧ i < 0x34000 then .word (164 + (i - 0x20000) / 0x2000) (i % 0x2000)
  else .unassigned

/-- The kind code of a point (R405). -/
def Point.kind : Point → Nat
  | .counter => 1 | .bin => 2 | .tap .. | .setting .. | .nl .. => 3 | .gauge .. | .rqfLast _ | .occupancy => 4
  | .word .. => 5 | .unassigned => 0

/-- A point as it reads: value of 48 bits, kind and status (R405, R408). -/
structure PointRead where
  value : Nat
  kind : Nat
  status : Nat
  deriving DecidableEq, Repr

/-- A read of a point, and the state after the errors that it meets (R406 to R409). -/
def obsRead (i : Nat) (s : State) : PointRead × State :=
  let p := pointOf i
  let v (x : Int) : PointRead := ⟨enc2 48 x, p.kind, 0⟩
  match p with
  | .counter | .bin =>
    let m := 128 + i / 8192
    if s.blockGone m then (⟨0, p.kind, 1⟩, s)
    else
      let (bs, ue, s) := readWord .management m (i % 8192) s
      if ue ∨ i ∈ s.obs.invalid then (⟨0, p.kind, 1⟩, s)
      else (⟨ofLE bs % 2 ^ 48, p.kind, if i ∈ s.obs.restarted then 2 else 0⟩, s)
  | .tap pg off lsb w => (v (sx w (s.ffget pg ⟨off, lsb, w⟩)), s)
  | .setting pg off lsb w => (v (s.ffget pg ⟨off, lsb, w⟩), s)
  | .gauge pg off lsb w signed => (v (if signed then sx w (s.fget pg ⟨off, lsb, w⟩) else s.fget pg ⟨off, lsb, w⟩), s)
  | .rqfLast n => (v s.cal[n].rqfLast, s)
  | .occupancy => (v (s.fget seqP occNow), s)
  | .nl n band pending e =>
    let b := bits s.lanes[Fin.ofNat 8 n].nlBank band 1
    let o := nlOff n band (if pending then 1 - b else b) e
    let (_, ue, t) := readWord .management 175 (o / 4) s
    if ue then (⟨0, p.kind, 1⟩, t) else (v (sx 8 (tblEntry s o 1)), t)
  | .word m w =>
    if s.sec.lock then (⟨0, 5, 3⟩, s)
    else
      let (bs, ue, s) := readWord .management m w s
      (if ue then ⟨0, 5, 1⟩ else v (sx 24 (ofLE bs)), s)
  | .unassigned => (⟨0, 0, 4⟩, s)

/-- The address of entry e of the snapshot buffer, behind the counters in OBSM (R410). -/
def snapWord (e : Nat) : Nat := 0x20000 + e % 4096

/-- A point read as the 64 bits of a buffer entry. -/
def PointRead.pack (r : PointRead) : Nat := r.value % 2 ^ 48 + r.kind * 2 ^ 48 + r.status * 2 ^ 51

/-- The state with a point's value copied to a buffer entry, and zeroed where it is a counter or bin and CLR asks (R410, R411). -/
def snapPoint (base e : Nat) (clr : Bool) (s : State) : State :=
  let i := base + e
  let (r, s) := obsRead i s
  let s := memWrite (ctrAddr (snapWord e)) (bytesLE 8 r.pack) s
  if clr && (r.kind == 1 || r.kind == 2) then ctrPut i 0 s else s

/-- A write of SNAP: the group's values at this instant, or a refusal (R410, R411). -/
def obsSnapOp (clr : Bool) (s : State) : State :=
  let base := s.fget obsP ⟨0x050, 0, 18⟩
  let cnt := clampN 1 4096 (s.fget obsP ⟨0x054, 0, 13⟩)
  if s.flag obsP snapBusy ∨ 262144 < base + cnt then ignored obsP 0x040 16 (s.setFlag obsP snapRefused true)
  else
    let s := ((s.setFlag obsP snapRefused false).setFlag obsP snapBusy true).fadd obsP snapSeq 1
    let s := each (List.range cnt) (fun e s => snapPoint base e clr s) s
    { s with obs := { s.obs with snapCnt := cnt, snapTs := s.time.dtc } }

/-- OBS_SNAP (R410). -/
def execObsSnap (clr : Bool) (s : State) : Host.Outcome State Fault Refusal := nxt (obsSnapOp clr s)

/-- SNAP_DONE: the copy has ended (R410). -/
def execSnapDone (s : State) : Host.Outcome State Fault Refusal := nxt (s.setFlag obsP snapBusy false)

/-- A read of SNAP_TS_LO, which snapshots both halves (R422). -/
def snapTsRead (s : State) : State :=
  (s.wr (ra obsP 0x05C) s.obs.snapTs.toNat).wr (ra obsP 0x060) (s.obs.snapTs.toNat / 2 ^ 32)

/-- A write of ACK: the selected point, where RESTARTED, is VALID again (R408). -/
def obsAckOp (s : State) : State :=
  { s with obs := { s.obs with restarted := s.obs.restarted.filter (fun i => i != s.fget obsP obsIndex) } }

/-- OBS_ACK (R408). -/
def execObsAck (s : State) : Host.Outcome State Fault Refusal := nxt (obsAckOp s)

/-- An entry of the snapshot buffer as it reads (R412). -/
def bufRead (e : Nat) (s : State) : PointRead × State :=
  if s.flag obsP snapBusy then (⟨0, 0, 5⟩, s)
  else if s.obs.snapCnt ≤ e then (⟨0, 0, 4⟩, s)
  else
    let i := snapWord e
    let (bs, ue, s) := readWord .management (128 + i / 8192) (i % 8192) s
    let w := ofLE bs
    (if ue then ⟨0, bits w 48 3, 1⟩ else ⟨w % 2 ^ 48, bits w 48 3, bits w 51 3⟩, s)

/-- A read of VALUE_LO: the selected point, or buffer entry, is snapshotted (R408, R412, R422). -/
def valueLoReadOp (s : State) : State :=
  let i := s.fget obsP obsIndex
  let (r, s) := if s.flag obsP obsBuf then bufRead (i % 4096) s else obsRead i s
  (s.wr (ra obsP 0x048) (r.value % 2 ^ 32)).wr (ra obsP 0x04C) (r.value / 2 ^ 32 % 65536 + r.kind * 2 ^ 16 + r.status * 2 ^ 19)

/-- VALUE_LO_READ (R408). -/
def execValueLoRead (s : State) : Host.Outcome State Fault Refusal := nxt (valueLoReadOp s)

/-- One named point of the trace port; a LOCKED one is not sent (R409, R421). -/
def tracePoint (j : Nat) (s : State) : State :=
  let w := s.rd (ra trcP (0x044 + 4 * j))
  if tb w 31 then
    let (r, s) := obsRead (w % 2 ^ 18) s
    if r.status = 3 then s else trcPoint (w % 2 ^ 18) r.value r.status s
  else s

/-- TRACE_POINT_TIMER (R421). -/
def execTracePointTimer (s : State) : Host.Outcome State Fault Refusal :=
  nxt (if trcOn s 6 && trcDrives s then each (List.range 8) tracePoint s else s)

end Sys2Proof.Machine
end

