-- ==== Sys2Proof/Machine/Capture.lean ====
section
/-! DEFINITION. The capture units: sources, reductions, records and their storage, constellations (R413 to R419, R423, R425). -/

namespace Sys2Proof.Machine

/-- Page CAPk. -/
def capP (k : Nat) : Nat := 0x018 + k
/-- CAP_SRC.KIND (R423). -/
def capKind : Fld := ⟨0x044, 0, 4⟩
/-- CAP_SRC.INST. -/
def capInst : Fld := ⟨0x044, 4, 4⟩
/-- CAP_SRC.SKEW_EN. -/
def capSkewEn : Fld := ⟨0x044, 8, 1⟩
/-- CAP_STAT: 0 idle, 1 armed, 2 post-trigger, 3 done. capStat is its two low bits. -/
def capState : Fld := ⟨0x0C0, 2, 3⟩
/-- CAP_STAT, rate halved. -/
def capHalved : Fld := ⟨0x0C0, 5, 1⟩
/-- CAP_STAT.SKEW_OK. -/
def capSkewOk : Fld := ⟨0x0C0, 6, 1⟩
/-- CAP_STAT, ARM refused. -/
def capRefused : Fld := ⟨0x0C0, 7, 1⟩
/-- CAP_WPTR, next record. -/
def capWptr : Fld := ⟨0x0C4, 0, 18⟩
/-- CAP_WPTR.WRAPPED. -/
def capWrapped : Fld := ⟨0x0C4, 31, 1⟩
/-- CAP_TPTR.VALID. -/
def capTvalid : Fld := ⟨0x0C8, 31, 1⟩
/-- CAP_DROP (R423). -/
def capDrop : Fld := ⟨0x0D8, 0, 16⟩

/-- The page's kind and instance of the source. -/
def capSrc (k : Fin 4) (s : State) : Nat × Nat := (s.fget (capP k) capKind, s.fget (capP k) capInst)

/-- A line lane under a lane test (R224). -/
def underTest (n : Lane) (s : State) : Bool := s.ist.kind == 1 && s.ist.unit == n.val

/-- The source delivers samples: its lane runs, not parked, not in dusk, under no foreground calibration and no lane test (R413). -/
def srcLive (k : Fin 4) (s : State) : Bool :=
  let (kind, i) := capSrc k s
  if kind ≤ 3 then
    let n := Fin.ofNat 8 i
    decide (i < 8) && s.rxLive n && !underTest n s
  else
    let h := Fin.ofNat 16 i
    match s.laneOf h with
    | some n => s.lanes[n].run && !s.stopped (hrxP h) && !s.bad (hrxP h) && !s.dusky n && !underTest n s
    | none => false

/-- The latency meter has a valid window of the source's lane and direction (R419). -/
def capMeter (k : Fin 4) (s : State) : Bool :=
  let (kind, i) := capSrc k s
  if kind ≤ 3 then decide (i < 8) && kget 0 s.wmk[Fin.ofNat 8 i].lat 32 == 1
  else
    let h := Fin.ofNat 16 i
    match s.laneOf h with
    | some n => kget 0 s.wmk[n].lat (if mapRate (s.mapOf n) == 0 && mapB (s.mapOf n) == h then 31 else 30) == 1
    | none => false

/-- Condition A or B of a state (R416, R423). -/
def capCond (k : Fin 4) (st : Nat) (second : Bool) (s : State) : Nat := s.rd (ra (capP k) (0x080 + 8 * st + (if second then 4 else 0)))

/-- An ARM that is refused: a lock, a missing source or test, or CAP0 while its storage holds the download (R409, R413, R416, R434). -/
def armBad (k : Fin 4) (s : State) : Bool :=
  let (kind, _) := capSrc k s
  decide (5 < kind) || (s.sec.lock && tb (s.rd (ra (capP k) 0x048)) 0 && (kind == 3 || kind == 5))
    || (List.range 8).any (fun st => decide (11 < capCond k st false s % 32) || decide (11 < capCond k st true s % 32))
    || (k == 0 && s.sec.dlTaken)

/-- The bins of a unit's histogram start at zero (R414). -/
def zeroBins (k : Fin 4) (s : State) : State := each (List.range 256) (fun b s => ctrPut (0x400 + 256 * k + b) 0 s) s

/-- ARM: a new capture in S0, or a refusal (R409, R413, R416, R417, R423). -/
def capArmOp (k : Fin 4) (s : State) : State :=
  let p := capP k
  if armBad k s then ignored p 0x040 19 (s.setFlag p capRefused true)
  else
    let ok := s.flag p capSkewEn && capMeter k s
    let s := s.wr (ra p 0x0C0) (1 + 64 * bit ok)
    let s := ((s.wr (ra p 0x0C4) 0).wr (ra p 0x0C8) 0).wr (ra p 0x0D8) 0
    let s := zeroBins k s
    s.setCap k (fun _ => { live := srcLive k s })

/-- CAP_ARM (R416). -/
def execCapArm (k : Fin 4) (s : State) : Host.Outcome State Fault Refusal := nxt (capArmOp k s)

/-- A record enters the unit's buffer; a full buffer drops one of a reduction, which CAP_DROP counts (R418). -/
def capPush (k : Fin 4) (keep : Bool) (r : Nat) (s : State) : State :=
  if keep || s.caps[k].buf.length < 256 then s.setCap k (fun c => { c with buf := c.buf ++ [BitVec.ofNat 64 r] })
  else (s.setCap k (fun c => { c with dropped := c.dropped + 1 })).fsat (capP k) capDrop 1

/-- A MARK record (R415). -/
def capMark (k : Fin 4) (cause arg : Nat) (s : State) : State :=
  capPush k true (8 * 2 ^ 60 + cause * 2 ^ 56 + arg % 256 * 2 ^ 48 + s.caps[k].pos % 2 ^ 48) s

/-- The width of a RAW sample, and how many a record holds (R413, R415). -/
def rawForm (kind : Nat) : Nat × Nat := if kind = 1 then (16, 3) else if kind = 3 ∨ kind = 5 then (2, 28) else (8, 7)

/-- D in force: DEC_M1 + 1 doubled, at most 2^24 (R414, R418). -/
def capD (k : Fin 4) (s : State) : Nat := min (2 ^ 24) ((s.rd (ra (capP k) 0x04C) + 1) * 2 ^ s.caps[k].rate)

/-- D doubles, with its MARK and its event (R418); at 2^24 it stays. -/
def capDouble (k : Fin 4) (s : State) : State :=
  if 2 ^ 24 ≤ capD k s then s.setCap k (fun c => { c with rateWait := false })
  else
    let r := s.caps[k].rate + 1
    let s := s.setCap k (fun c => { c with rate := r, rateWait := false })
    raise (486 + 4 * k) r (capMark k 1 r (s.setFlag (capP k) capHalved true))

/-- The RAW record in progress ends; N beyond its field's range is left open (R415; log entry 34). -/
def rawFlush (k : Fin 4) (s : State) : State :=
  let c := s.caps[k]
  if c.raw.isEmpty then s
  else
    let (w, _) := rawForm (capSrc k s).1
    let n := c.raw.length
    let (f, s) := if n < 16 then (n, s) else s.draw 4
    let pay := (c.raw.zip (List.range n)).foldl (fun a x => a + x.1 * 2 ^ (w * x.2)) 0
    let s := capPush k false (2 ^ 60 + f * 2 ^ 56 + pay) (s.setCap k (fun c => { c with raw := [] }))
    if c.rateWait then capDouble k s else s

/-- RAW: one sample in every D (R414). -/
def rawSample (k : Fin 4) (v : Int) (s : State) : State :=
  let c := s.caps[k]
  if c.rawWait = 0 then
    let (w, m) := rawForm (capSrc k s).1
    let s := s.setCap k (fun c => { c with raw := c.raw ++ [enc2 w v], rawWait := capD k s - 1 })
    if m ≤ c.raw.length + 1 then rawFlush k s else s
  else s.setCap k (fun c => { c with rawWait := c.rawWait - 1 })

/-- MMM: minimum, maximum and mean of each block (R414, R415). -/
def mmmSample (k : Fin 4) (v : Int) (s : State) : State :=
  let c := s.caps[k]
  let lo := if c.mmmN = 0 ∨ v < c.mmmMin then v else c.mmmMin
  let hi := if c.mmmN = 0 ∨ c.mmmMax < v then v else c.mmmMax
  let sum := if c.mmmN = 0 then v else c.mmmSum + v
  let l := 2 ^ (6 + s.fget (capP k) ⟨0x048, 4, 4⟩)
  if l ≤ c.mmmN + 1 then
    capPush k false (2 * 2 ^ 60 + enc2 16 lo * 2 ^ 44 + enc2 16 hi * 2 ^ 28 + enc2 28 (roundHalfUp (16 * sum) l))
      (s.setCap k (fun c => { c with mmmN := 0 }))
  else s.setCap k (fun c => { c with mmmN := c.mmmN + 1, mmmMin := lo, mmmMax := hi, mmmSum := sum })

/-- The bin of a sample (R414). -/
def histBin (kind : Nat) (v : Int) : Nat :=
  if kind = 3 ∨ kind = 5 then enc2 2 v
  else (clampI 0 255 ((if kind = 1 then v / 256 else v) + 128)).toNat

/-- HIST: every sample is counted, and each period ends in 256 records (R414, R415). -/
def histSample (k : Fin 4) (v : Int) (s : State) : State :=
  let s := addCtr (0x400 + 256 * k + histBin (capSrc k s).1 v) 1 s
  if 2 ^ (10 + s.fget (capP k) ⟨0x048, 8, 5⟩) ≤ s.caps[k].histN + 1 then
    let s := each (List.range 256) (fun b s =>
      let i := 0x400 + 256 * k + b
      capPush k false (3 * 2 ^ 60 + b * 2 ^ 52 + (if i ∈ s.obs.invalid then 0 else s.ctr i)) s) s
    zeroBins k (s.setCap k (fun c => { c with histN := 0 }))
  else s.setCap k (fun c => { c with histN := c.histN + 1 })

/-- ERRMAP: a run of disagreements of ERR_RUN or more ends in a record; the flag says that one ended (R414, R416). -/
def errSample (k : Fin 4) (x : CapSample) (s : State) : Bool × State :=
  let c := s.caps[k]
  if x.differs then (false, s.setCap k (fun c => { c with run := c.run + 1, runAt := if c.run = 0 then c.pos else c.runAt }))
  else
    let s := s.setCap k (fun c => { c with run := 0 })
    if c.run ≠ 0 ∧ max 1 (s.fget (capP k) ⟨0x048, 13, 8⟩) ≤ c.run then
      (true, capPush k false (4 * 2 ^ 60 + min 255 c.run * 2 ^ 48 + c.runAt % 2 ^ 48) s)
    else (false, s)

/-- What the samples of a tick show a constellation: one at or above CAP_THR, one below it, the end of a run (R416). -/
structure TickSeen where
  ge : Bool := false
  lt : Bool := false
  ended : Bool := false
  deriving DecidableEq, Repr

/-- One sample passes the reductions (R414). -/
def capSample (k : Fin 4) (x : CapSample) (r : TickSeen × State) : TickSeen × State :=
  let s := r.2
  let red := s.rd (ra (capP k) 0x048)
  let thr := sx 16 (s.rd (ra (capP k) 0x054))
  let s := onlyIf (tb red 0) (rawSample k x.v) s
  let s := onlyIf (tb red 1) (mmmSample k x.v) s
  let s := onlyIf (tb red 2) (histSample k x.v) s
  let (e, s) := if tb red 3 && decide ((capSrc k s).1 ≤ 3) then errSample k x s else (false, s)
  ({ ge := r.1.ge || decide (thr ≤ x.v), lt := r.1.lt || decide (x.v < thr), ended := r.1.ended || e },
    s.setCap k (fun c => { c with pos := c.pos + 1 }))

/-- A condition of a constellation (R416). -/
def condTrue (k : Fin 4) (w : Nat) (seen : TickSeen) (pps : Bool) (s : State) : Bool :=
  let arg := bits w 5 9
  let c := s.caps[k]
  match w % 32 with
  | 1 => true
  | 2 => s.evt.stat.getLsbD arg
  | 3 => seen.ge
  | 4 => seen.lt
  | 5 => decide (s.rd (ra (capP k) 0x058) ≤ c.cnt0)
  | 6 => decide (s.rd (ra (capP k) 0x05C) ≤ c.cnt1)
  | 7 => c.tmr0 == 2
  | 8 => c.tmr1 == 2
  | 9 => decide (arg < 4) && s.caps[Fin.ofNat 4 arg].triggered
  | 10 => pps
  | 11 => seen.ended
  | _ => false

/-- The first trigger: the TRIG record and the DTC of its sample, CAPk_TRIG, and the records that follow are counted (R415 to R417; log entry 34). With SKEW_OK the DTC is referred to the balls by a delay that the spec does not state. -/
def capTrigger (k : Fin 4) (at_ : Nat) (s : State) : State :=
  let p := capP k
  if s.caps[k].triggered then s
  else
    let st := s.fget p capState
    let s := s.fset p capStat 2
    let s := s.setCap k (fun c => { c with triggered := true, trigIn := some c.buf.length })
    let (d, s) := if s.flag p capSkewOk then s.draw 64 else (s.time.dtc.toNat, s)
    let s := capPush k true d (capPush k true (0xE * 2 ^ 60 + st * 2 ^ 48 + at_ % 2 ^ 48) s)
    raise (484 + 4 * k) st s

/-- The transition taken: its actions, then its next state (R416). -/
def takeCond (k : Fin 4) (w at_ : Nat) (s : State) : State :=
  let lim (n : Nat) : Nat := min (2 ^ 32 - 1) (n + 1)
  let s := s.setCap k (fun c => { c with
    cnt0 := if tb w 17 then lim c.cnt0 else c.cnt0, cnt1 := if tb w 18 then lim c.cnt1 else c.cnt1,
    tmr0 := if tb w 19 then 1 else c.tmr0, tmr1 := if tb w 20 then 1 else c.tmr1 })
  let s := onlyIf (tb w 21) (capTrigger k at_) s
  s.fset (capP k) capState (bits w 14 3)

/-- Whether the records after the trigger are all stored (R417). -/
def capComplete (k : Fin 4) (s : State) : Bool :=
  s.fget (capP k) capStat == 2 && s.flag (capP k) capTvalid && s.caps[k].post == 0

/-- The unit captures, its domain being on. -/
def capRuns (k : Fin 4) (s : State) : Bool :=
  s.pwr.coreOn && (s.fget (capP k) capStat == 1 || s.fget (capP k) capStat == 2) && !capComplete k s

/-- The records of a unit's storage: CAP3 keeps clear of the save window where SAVE_EXCL reads 1 (R417, R225). -/
def capSize (k : Fin 4) (s : State) : Nat :=
  if k = 3 ∧ (tb (s.rd (ra (capP 3) 0x040)) 3 ∨ s.ist.redirected.isSome) then 253952 else 262144

/-- The unit stores its oldest record; a MARK reports drops as soon as there is space (R417, R418; log entry 34). -/
def capStore (k : Fin 4) (s : State) : State :=
  let p := capP k
  match s.caps[k].buf with
  | [] => s
  | r :: rest =>
    let i := s.fget p capWptr
    let s := memWrite ((32 * k + i / 8192) * 65536 + 8 * (i % 8192)) (bytesLE 8 r.toNat) s
    let s := s.fset p capWptr (if i + 1 < capSize k s then i + 1 else 0)
    let s := onlyIf (decide (capSize k s ≤ i + 1)) (fun s => s.setFlag p capWrapped true) s
    let c := s.caps[k]
    let s :=
      match c.trigIn with
      | some 0 =>
        (s.wr (ra p 0x0C8) (i + 2 ^ 31)).setCap k (fun c => { c with buf := rest, trigIn := none, post := s.rd (ra p 0x050) + 1 })
      | some (j + 1) => s.setCap k (fun c => { c with buf := rest, trigIn := some j })
      | none => s.setCap k (fun c => { c with buf := rest, post := c.post - 1 })
    if c.dropped = 0 then s
    else
      let s := capMark k 3 (min 255 c.dropped) (s.setCap k (fun c => { c with dropped := 0 }))
      raise (487 + 4 * k) (min 127 c.dropped) s

/-- A source that stops or resumes ends the RAW record in progress and leaves a MARK (R413). -/
def capLive (k : Fin 4) (live : Bool) (s : State) : State :=
  if s.caps[k].live == live then s
  else
    let s := s.setCap k (fun c => { c with live := live })
    if s.caps[k].started then capMark k 2 0 (rawFlush k s) else s

/-- One tick, in which the source delivers `count` samples: they pass the reductions, the constellation steps, and a record is stored (R413 to R418). -/
def capTick (k : Fin 4) (count : Nat) (pps : Bool) (s : State) : State :=
  if capRuns k s then
    let live := srcLive k s
    let s := capLive k live s
    let xs := if live then s.caps[k].feed.take count else []
    let s := s.setCap k (fun c => { c with feed := if live then c.feed.drop count else [] })
    let s := onlyIf (!xs.isEmpty && !s.caps[k].started) (fun s =>
      let (d, s) := if s.flag (capP k) capSkewOk then s.draw 64 else (s.time.dtc.toNat, s)
      capPush k true d (capPush k true (0xD * 2 ^ 60) (s.setCap k (fun c => { c with started := true })))) s
    let from_ := s.caps[k].pos
    let (seen, s) := xs.foldl (fun r x => capSample k x r) (({} : TickSeen), s)
    let st := s.fget (capP k) capState
    let (a, b) := (capCond k st false s, capCond k st true s)
    let (d, s) := if xs.isEmpty then (0, s) else let (v, s) := s.draw 16; (v % xs.length, s)
    let s :=
      if condTrue k a seen pps s then takeCond k a (from_ + d) s
      else if condTrue k b seen pps s then takeCond k b (from_ + d) s
      else s
    capStore k s
  else s

/-- CONSTELLATION_TICK (R416). -/
def execConstellationTick (k : Fin 4) (count : Nat) (pps : Bool) (s : State) : Host.Outcome State Fault Refusal :=
  nxt (capTick k count pps s)

/-- The unit stops: what it has made is stored, and CAPk_DONE is raised (R417). -/
def capEnd (k : Fin 4) (s : State) : State :=
  raise (485 + 4 * k) 0 ((s.fset (capP k) capStat 3).setCap k (fun c => { c with buf := [], raw := [] }))

/-- CAP_STOP as an operation (R417). -/
def capStopOp (k : Fin 4) (s : State) : State :=
  if s.fget (capP k) capStat = 1 ∨ s.fget (capP k) capStat = 2 then
    let s := rawFlush k s
    let s := each (List.range (s.caps[k].buf.length + 1)) (fun _ s => if capComplete k s then s else capStore k s) s
    capEnd k s
  else s

/-- CAP_STOP (R417). -/
def execCapStop (k : Fin 4) (s : State) : Host.Outcome State Fault Refusal := nxt (capStopOp k s)

/-- CAP_FORCE as an operation: a trigger now, ignored after one (R416). -/
def capForceOp (k : Fin 4) (s : State) : State :=
  if s.fget (capP k) capStat = 1 then capTrigger k s.caps[k].pos s else s

/-- CAP_FORCE (R416). -/
def execCapForce (k : Fin 4) (s : State) : Host.Outcome State Fault Refusal := nxt (capForceOp k s)

/-- CAP_TIMER_EXPIRY: a running constellation timer has expired (R416). -/
def execCapTimerExpiry (k : Fin 4) (second : Bool) (s : State) : Host.Outcome State Fault Refusal :=
  nxt (if capRuns k s then
    s.setCap k (fun c => if second then { c with tmr1 := if c.tmr1 = 1 then 2 else c.tmr1 } else { c with tmr0 := if c.tmr0 = 1 then 2 else c.tmr0 })
  else s)

/-- CAP_DONE: the records after the trigger are stored (R417). -/
def execCapDone (k : Fin 4) (s : State) : Host.Outcome State Fault Refusal := nxt (if capComplete k s then capEnd k s else s)

/-- CAP_BUFFER_HIGH: more than 192 records wait; D doubles at the next RAW record boundary (R418). -/
def execCapBufferHigh (k : Fin 4) (s : State) : Host.Outcome State Fault Refusal :=
  nxt (if capRuns k s && decide (192 < s.caps[k].buf.length) && tb (s.rd (ra (capP k) 0x048)) 0 then
    if s.caps[k].raw.isEmpty then capDouble k s else s.setCap k (fun c => { c with rateWait := true })
  else s)

/-- A read of CAP_DATA_LO: the record is snapshotted, 0xEEEE_EEEE in both halves with LAST_ERR cause 4 where it is damaged (R305, R312, R423). -/
def capDataRead (k : Fin 4) (s : State) : State :=
  let p := capP k
  let i := s.fget p ⟨0x0CC, 0, 18⟩
  let (bs, ue, s) := readWord .management (32 * k + i / 8192) (i % 8192) s
  let w := ofLE bs
  if ue then lastErr p 0x0D0 4 false false ((s.wr (ra p 0x0D0) 0xEEEEEEEE).wr (ra p 0x0D4) 0xEEEEEEEE)
  else (s.wr (ra p 0x0D0) (w % 2 ^ 32)).wr (ra p 0x0D4) (w / 2 ^ 32)

/-- CAP_DATA_LO_READ (R423). -/
def execCapDataLoRead (k : Fin 4) (s : State) : Host.Outcome State Fault Refusal := nxt (capDataRead k s)

/-- After a read of CAP_DATA_HI the address advances where AUTO_INC asks (R423). -/
def capDataHi (k : Fin 4) (s : State) : State :=
  if s.flag (capP k) ⟨0x0CC, 31, 1⟩ then s.fadd (capP k) ⟨0x0CC, 0, 18⟩ 1 else s

/-- Whether a blown observation lock ends a capture that ARM would now refuse (R409). -/
def capLocked (s : State) : State :=
  each (List.finRange 4) (fun (k : Fin 4) s =>
    let (kind, _) := capSrc k s
    if capRuns k s && tb (s.rd (ra (capP k) 0x048)) 0 && (kind == 3 || kind == 5) then capStopOp k s else s) s

end Sys2Proof.Machine
end

