-- ==== Sys2Proof/Machine/LowPower.lean ====
section
/-! DEFINITION. The low-power state: steps 4 to 6 of the entry, the retention seals, the wake-walk and the resumption (R318, R328, R330 to R332). Steps 1 to 3 are in Machine/Press.lean and the wake sources in Machine/Power.lean. -/

namespace Sys2Proof.Machine

/-- The macros held at 0.45 V in the low-power state (R318). -/
def retained (m : Nat) : Bool := regionOf m == 1 || regionOf m == 3 || regionOf m == 4 || regionOf m == 6

/-- Their list. -/
def retainedList : List Nat := (List.range 176).filter retained

/-- LP_CNT, in WAKE_SRC (R346). -/
def lpCnt : Fld := ⟨0x048, 16, 16⟩

/-- A seal of a macro: the bottom one, or the top one (R331). -/
def sealWord (top : Bool) (m cnt : Nat) : Nat :=
  (if top then 0xA5C3 else 0x5A3C) * 2 ^ 48 + (m - 128) % 256 * 2 ^ 40 + cnt % 65536 * 2 ^ 24 + 0x963C5A

/-- A macro is sealed: its CRC-32 and its 16 outermost bytes are saved, and two writes put the seals in their place with valid check bits (R304, R315, R331). -/
def sealMacro (m : Nat) (s : State) : State :=
  let a := m * 65536
  let z := a + blockBytes m - 8
  let bs := s.fetchN a (blockBytes m)
  let cnt := s.fget pwrP lpCnt
  let s := { s with pwr := { s.pwr with retn := s.pwr.retn ++ [(m, crc32 bs, s.fetchN a 8 ++ s.fetchN z 8)] } }
  memWrite z (bytesLE 8 (sealWord true m cnt)) (memWrite a (bytesLE 8 (sealWord false m cnt)) s)

/-- The memories that lose power hold nothing known any more, and no word of them is written (R305, R318). -/
def memLost (lost : Nat → Bool) (s : State) : State :=
  let keep (a : Nat) : Bool := !lost (a / 65536)
  { s with
    mem := s.mem.filter (fun c => keep c.1), chk := s.chk.filter (fun c => keep c.1),
    wflag := s.wflag.filter (fun c => keep c.1), ceSeen := s.ceSeen.filter (fun c => keep c.1) }

/-- The end of the entry: steps 4 to 6 of R328. A wake source kept during the entry wakes the device at once, where R327 does not hold it (R328, R329). -/
def lpComplete (s : State) : State :=
  let s := drainAbort s
  let s := each s.nv.wait (fun _ s => nvCommit s) s
  let s := nvShow { s with nv := { s.nv with compact := min 1 s.nv.compact } }
  let s := each (List.finRange 16) (fun (h : Host16) s => hrxLolOp h (hrxLosOp h (s.setFlag (htxP h) htxPll false))) s
  let s := (s.wr (ra memP 0x094) 0).wr (ra memP 0x098) 0
  let s := s.fadd pwrP lpCnt 1
  let s := each retainedList sealMacro { s with pwr := { s.pwr with retn := [] } }
  let s := (targetSet 0 { s with pwr := { s.pwr with avsWhole := some 0, avsFails := 0 } }).setFlag pwrP vcoreRaise false
  let kept := (List.range 8).foldl (fun a n => a + bit (sdEnabled s n) * 2 ^ n) 0
  let sd : Byte := BitVec.ofNat 8 kept
  let s := each ((List.finRange 8).filter (fun (n : Lane) => !sd.getLsbD n)) (fun (n : Lane) s => s.setCal n (fun c => { c with corr := [] })) s
  let s := each (List.finRange 5) (fun e s => s.setEng e (fun g => { g with wq := [] })) s
  let s := { s with pwr := { s.pwr with coreOn := false, laneOn := s.pwr.laneOn &&& sd, subOn := 0, sdKept := sd, hostOn := 0, waitGood := [] } }
  let s := memLost (fun m => regionOf m = 0 || regionOf m = 2) (xbarShow (cmdCut false { s with sec := { s.sec with verified := none } }))
  let s := hkPause 1 (hkPause 0 s)
  let s := raise 32 s.pwr.lpCause (stateChanged (s.fset pwrP pwrState 2))
  match s.pwr.wakePend with
  | some (c, n) => if lpHeld s then { s with pwr := { s.pwr with wakePend := none } } else wakeStart c n s
  | none => s

/-- LP_ENTRY_COMPLETE (R328). -/
def execLpEntryComplete (s : State) : Host.Outcome State Fault Refusal :=
  nxt (if s.fget pwrP pwrState = 1 ∧ s.seq.drain = 1 then lpComplete s else s)

/-- Whether a seal's 8 bytes read as written, none of them uncorrectable (R332). -/
def sealOk (top : Bool) (m : Nat) (s : State) : Bool :=
  let a := if top then m * 65536 + blockBytes m - 8 else m * 65536
  !s.isUe a 8 && ofLE (s.fetchN a 8) == sealWord top m (s.fget pwrP lpCnt)

/-- The bytes of a macro whose check bits are listed as in error and whose word is written. -/
def errBytes (m : Nat) (s : State) : List Nat :=
  (s.chk.filter (fun c => c.1 / 65536 == m && c.2 != 0 && s.written c.1)).map (fun c => c.1)

/-- The owners of a lost macro cold-start: every engine where it holds sheets, the engine of an X or Y memory, the oscillators where it holds the tables; the star map's counters restart by their recovery (R318, R401). DESIGN CHOICE, log entry 81. -/
def coldStart (m : Nat) (s : State) : State :=
  match regionOf m with
  | 3 => each (List.finRange 5) (fun e s => s.setEng e (fun _ => {})) s
  | 4 => s.setEng (Fin.ofNat 5 ((m - 164) / 2)) (fun _ => {})
  | 6 => { s with adac := { s.adac with phase := Vector.replicate 4 0 } }
  | _ => s

/-- A lost macro: RETN_STAT, event 69, the recovery of every word, and the cold start of its owners (R318). -/
def macroLost (m : Nat) (s : State) : State :=
  let s := if m < 152 then s.fset memP ⟨0x094, m - 128, 1⟩ 1
    else if m < 164 then s.fset memP ⟨0x094, 24 + m - 160, 1⟩ 1
    else s.fset memP ⟨0x098, min 10 (m - 164), 1⟩ 1
  let occ := s.nextOcc
  coldStart m (each (List.range (blockWords m)) (fun w s => recover addCtr m w occ s) (raise 69 (m - 128) s))

/-- The wake-walk of one macro (R332). -/
def walkMacro (m crc : Nat) (saved : List Byte) (s : State) : State :=
  if sealOk false m s && sealOk true m s then
    let a := m * 65536
    let s := each (errBytes m s) (fun b s => if eccOf (s.chkErr b) == .ce then ceFound addCtr b 1 s else s) s
    let s := memWrite (a + blockBytes m - 8) (saved.drop 8) (memWrite a (saved.take 8) s)
    if crc32 (s.fetchN a (blockBytes m)) = crc then s else macroLost m s
  else macroLost m s

/-- The pages that low power held parked run again, but for those that PG_CTRL.PARK keeps parked (R328, R330, R374). -/
def lpUnpark (s : State) : State :=
  each dataPages (fun p s =>
    if !s.stopped p then s else if s.flag p pgCtrlPark then s.fset p pgPark 2 else becomeRunning p s) s

/-- The device has woken: steps 3 to 5 of R330, after the upsets that the retained macros have met. -/
def wakeEnd (upsets : List (Nat × BitVec 13)) (s : State) : State :=
  let s := each s.pwr.waitGood domainOn s
  let s := each (upsets.filter (fun u => retained (u.1 / 65536) && decide (u.1 % 65536 < blockBytes (u.1 / 65536)))) (fun u s => upset u.1 u.2 s) s
  let s := each s.pwr.retn (fun r s => walkMacro r.1 r.2.1 r.2.2 s) s
  let s := drainEnd (stateChanged ({ s with pwr := { s.pwr with retn := [], sdKept := 0 } }.fset pwrP pwrState 0))
  let s := raiseAfter 33 (s.fget pwrP ⟨0x048, 0, 3⟩ + 16 * s.fget pwrP ⟨0x048, 4, 3⟩) (s.waiting 69 (fun _ => true)) s
  let s := nvCompactGo s
  lpAsk (lasSettle (hkResume 1 (hkResume 0 (each (List.finRange 8) activate (lpUnpark s)))))

/-- WAKE_DONE (R330). -/
def execWakeDone (upsets : List (Nat × BitVec 13)) (s : State) : Host.Outcome State Fault Refusal :=
  nxt (if s.fget pwrP pwrState = 3 ∧ 1 ∉ s.pwr.faults then wakeEnd upsets s else s)

end Sys2Proof.Machine
end

