-- ==== Sys2Proof/Machine/Crypto.lean ====
section
/-! DEFINITION. The digest, the signatures and the identity key that Reams and reports rest on: SHA-512, RSASSA-PSS with MGF1, and the derivation of an RSA-4096 key by HMAC_DRBG (R431, R436, R437; PKCS #1 v2.2, FIPS 180-4, NIST SP 800-90A). -/

namespace Sys2Proof.Machine

/-- The integer `k`-th root of a number below 2^(k × bits): the largest r with r^k ≤ n. -/
def iroot (k n : Nat) : Nat → Nat → Nat
  | 0, r => r
  | b + 1, r => iroot k n b (if (r + 2 ^ b) ^ k ≤ n then r + 2 ^ b else r)

/-- The first 80 primes. -/
def primes80 : List Nat := (List.range 410).filter (fun n => decide (2 ≤ n) && (List.range' 2 19).all (fun d => n ≤ d || n % d != 0))

/-- The round constants of SHA-512: 64 bits of the fraction of the cube root of each prime. -/
def shaK : List (BitVec 64) := primes80.map (fun p => BitVec.ofNat 64 (iroot 3 (p * 2 ^ 192) 68 0))

/-- The initial hash value of SHA-512: 64 bits of the fraction of the square root of each of the first eight primes. -/
def shaH : List (BitVec 64) := (primes80.take 8).map (fun p => BitVec.ofNat 64 (iroot 2 (p * 2 ^ 128) 68 0))

/-- The words of a message of a block beyond the first 16, newest first. -/
def shaSchedule : Nat → List (BitVec 64) → List (BitVec 64)
  | 0, w => w
  | k + 1, w =>
    let a := nth 0 w 1
    let b := nth 0 w 14
    let s1 := (a.rotateRight 19) ^^^ (a.rotateRight 61) ^^^ (a >>> 6)
    let s0 := (b.rotateRight 1) ^^^ (b.rotateRight 8) ^^^ (b >>> 7)
    shaSchedule k ((s1 + nth 0 w 6 + s0 + nth 0 w 15) :: w)

/-- One round of SHA-512 on the working variables a to h. -/
def shaRound (v : List (BitVec 64)) (kw : BitVec 64) : List (BitVec 64) :=
  match v with
  | [a, b, c, d, e, f, g, h] =>
    let t1 := h + ((e.rotateRight 14) ^^^ (e.rotateRight 18) ^^^ (e.rotateRight 41)) + ((e &&& f) ^^^ (~~~e &&& g)) + kw
    let t2 := ((a.rotateRight 28) ^^^ (a.rotateRight 34) ^^^ (a.rotateRight 39)) + ((a &&& b) ^^^ (a &&& c) ^^^ (b &&& c))
    [t1 + t2, a, b, c, d + t1, e, f, g]
  | _ => v

/-- One block of 128 bytes. -/
def shaBlock (h : List (BitVec 64)) (block : List (BitVec 8)) : List (BitVec 64) :=
  let w := (shaSchedule 64 ((chunk 8 16 block).map (fun x => BitVec.ofNat 64 (ofBE x))).reverse).reverse
  let v := (shaK.zip w).foldl (fun v x => shaRound v (x.1 + x.2)) h
  (h.zip v).map (fun x => x.1 + x.2)

/-- SHA-512 of a byte string. -/
def sha512 (l : List (BitVec 8)) : List (BitVec 8) :=
  let n := l.length
  let pad := (111 + 128 - n % 128) % 128
  let m := l ++ [0x80#8] ++ List.replicate pad 0#8 ++ (bytesLE 16 (8 * n)).reverse
  ((chunk 128 (m.length / 128) m).foldl shaBlock shaH).flatMap (fun x => (bytesLE 8 x.toNat).reverse)

/-- MGF1 with SHA-512: the first `n` bytes of the mask of a seed. -/
def mgf1 (seed : List (BitVec 8)) (n : Nat) : List (BitVec 8) :=
  ((List.range ((n + 63) / 64)).flatMap (fun i => sha512 (seed ++ (bytesLE 4 i).reverse))).take n

/-- `b` to the power 2^k modulo `n`. -/
def squares (n : Nat) : Nat → Nat → Nat
  | 0, b => b
  | k + 1, b => squares n k (b * b % n)

/-- The bits of a number, none for 0; `fuel` bounds them. -/
def bitLen (n : Nat) : Nat → Nat
  | 0 => 0
  | k + 1 => if n.testBit k then k + 1 else bitLen n k

/-- EMSA-PSS-VERIFY of a message against an encoded message of `emBits` bits, with SHA-512, MGF1 and a 64-byte salt. -/
def pssVerify (msg em : List (BitVec 8)) (emBits : Nat) : Bool :=
  let len := em.length
  let db := em.take (len - 65)
  let h := (em.drop (len - 65)).take 64
  let top := 8 * len - emBits
  let clear (b : BitVec 8) : BitVec 8 := BitVec.ofNat 8 (b.toNat % 2 ^ (8 - top))
  if len < 130 ∨ em.getLast? ≠ some 0xBC#8 ∨ 2 ^ (8 - top) ≤ (nth 0 db 0).toNat then false
  else
    let un := (db.zip (mgf1 h db.length)).map (fun x => x.1 ^^^ x.2)
    let un := clear (nth 0 un 0) :: un.drop 1
    let z := db.length - 65
    (un.take z).all (fun b => b == 0#8) && nth 0 un z == 1#8
      && sha512 (List.replicate 8 0#8 ++ sha512 msg ++ un.drop (z + 1)) == h

/-- RSASSA-PSS-VERIFY with the exponent 65,537. -/
def rsaPssVerify (modulus : Nat) (msg sig : List (BitVec 8)) : Bool :=
  let s := ofBE sig
  let bitsN := bitLen modulus 4096
  if modulus ≤ s ∨ bitsN < 2 then false
  else
    let m := squares modulus 16 s * s % modulus
    let emBits := bitsN - 1
    let len := (emBits + 7) / 8
    if 2 ^ (8 * len) ≤ m then false else pssVerify msg (bytesLE len m).reverse emBits

/-! The identity key (R436) -/

/-- HMAC with SHA-512, for keys of at most one block. -/
def hmac512 (key msg : List (BitVec 8)) : List (BitVec 8) :=
  let k := key ++ List.replicate (128 - key.length) 0#8
  sha512 (k.map (fun b => b ^^^ 0x5C#8) ++ sha512 (k.map (fun b => b ^^^ 0x36#8) ++ msg))

/-- The state of an HMAC_DRBG: Key and V. -/
structure Drbg where
  key : List (BitVec 8) := List.replicate 64 0#8
  v : List (BitVec 8) := List.replicate 64 1#8

/-- The update of an HMAC_DRBG with provided data. -/
def Drbg.update (d : Drbg) (data : List (BitVec 8)) : Drbg :=
  let k := hmac512 d.key (d.v ++ [0#8] ++ data)
  let v := hmac512 k d.v
  if data.isEmpty then ⟨k, v⟩
  else
    let k := hmac512 k (v ++ [1#8] ++ data)
    ⟨k, hmac512 k v⟩

/-- `n` blocks of output of an HMAC_DRBG, before its update. -/
def Drbg.blocks : Nat → Drbg → List (BitVec 8) × Drbg
  | 0, d => ([], d)
  | n + 1, d =>
    let v := hmac512 d.key d.v
    let (l, d) := Drbg.blocks n { d with v := v }
    (v ++ l, d)

/-- A draw of 256 bytes, as a number. -/
def Drbg.draw (d : Drbg) : Nat × Drbg := let (l, d) := Drbg.blocks 4 d; (ofBE l, d.update [])

/-- `b` to the power `e` modulo `n`, over the low `k` bits of `e`. -/
def powMod (n : Nat) : Nat → Nat → Nat → Nat
  | 0, _, _ => 1 % n
  | k + 1, b, e => (if e % 2 = 1 then b else 1) * powMod n k (b * b % n) (e / 2) % n

/-- The number of times that 2 divides `n`, at most `k`. -/
def twos : Nat → Nat → Nat
  | 0, _ => 0
  | k + 1, n => if n % 2 = 0 then twos k (n / 2) + 1 else 0

/-- One round of Miller–Rabin on an odd p with a base. -/
def millerRabin (p base : Nat) : Bool :=
  let r := twos 2048 (p - 1)
  let x := powMod p 2048 base ((p - 1) / 2 ^ (min r 2048))
  x == 1 || (List.range (min r 2048)).any (fun i => squares p i x == p - 1)

/-- `n` rounds of Miller–Rabin with bases of the DRBG, each a draw brought to 2 … p − 2 (log entry 37). -/
def mrRounds (p : Nat) : Nat → Drbg → Bool × Drbg
  | 0, d => (true, d)
  | n + 1, d =>
    let (b, d) := d.draw
    if millerRabin p (2 + b % (p - 3)) then mrRounds p n d else (false, d)

/-- The primes below 2,000. -/
def primes2000 : List Nat := (List.range 2000).filter (fun n => decide (2 ≤ n) && (List.range' 2 43).all (fun d => n ≤ d || n % d != 0))

/-- The first candidate that is kept among `fuel`: a draw with its two top bits and its lowest bit set (log entry 37). -/
def drawPrime : Nat → Drbg → Nat × Drbg
  | 0, d => d.draw
  | fuel + 1, d =>
    let (c, d) := d.draw
    let p := c ||| (3 * 2 ^ (8 * 256 - 2) + 1)
    if primes2000.any (fun q => p % q == 0) || Nat.gcd 65537 (p - 1) != 1 then drawPrime fuel d
    else
      let (ok, d) := mrRounds p 5 d
      if ok then (p, d) else drawPrime fuel d

/-- q, whose search is repeated until it lies far enough from p. -/
def drawSecond (p fuel : Nat) : Nat → Drbg → Nat
  | 0, d => (drawPrime fuel d).1
  | again + 1, d =>
    let (q, d) := drawPrime fuel d
    let far := 1024
    if 2 ^ far < (p - q) + (q - p) then q else drawSecond p fuel again d

/-- The primes of the identity key of a seed and a nonce. The searches of the spec have no bound; these end after 65,536 candidates. -/
def identityPrimes (seed nonce : List (BitVec 8)) : Nat × Nat :=
  let d := Drbg.update {} (seed ++ nonce)
  let (p, d) := drawPrime 65536 d
  (p, drawSecond p 65536 65536 d)

/-- The private exponent for 65,537: the inverse modulo (p − 1)(q − 1). -/
def privateExponent (p q : Nat) : Nat :=
  let phi := (p - 1) * (q - 1)
  (1 + phi * ((65537 - powMod 65537 17 (phi % 65537) 65535) % 65537)) / 65537

/-- EMSA-PSS-ENCODE of a message to 512 bytes, of which the top bit is clear. -/
def pssEncode (msg salt : List (BitVec 8)) : List (BitVec 8) :=
  let h := sha512 (List.replicate 8 0#8 ++ sha512 msg ++ salt)
  let db := List.replicate 382 0#8 ++ [1#8] ++ salt
  let m := (db.zip (mgf1 h 447)).map (fun x => x.1 ^^^ x.2)
  (nth 0 m 0 &&& 0x7F#8) :: m.drop 1 ++ h ++ [0xBC#8]

/-- RSASSA-PSS-SIGN with the key of two primes and a salt of 64 bytes. -/
def rsaPssSign (p q : Nat) (msg salt : List (BitVec 8)) : List (BitVec 8) :=
  (bytesLE 512 (powMod (p * q) 4096 (ofBE (pssEncode msg salt)) (privateExponent p q))).reverse

end Sys2Proof.Machine
end

