-- ==== Sys2Proof/Machine/Sec.lean ====
section
/-! DEFINITION. Reams and SEC: the image format, its checks and the loading of its sections; the download buffer; the commands of SEC_CMD, fuse commands and attestation (R428 to R441, R446). What DL_ACTIVATE loads is in Machine/Boot.lean. -/

namespace Sys2Proof.Machine

/-! The image -/

/-- A number of an image, most significant byte first (R428). -/
def be (img : List Byte) (o k : Nat) : Nat := ofBE ((img.drop o).take k)

/-- LENGTH of an image. -/
def imgLength (img : List Byte) : Nat := be img 8 4
/-- VERSION of an image. -/
def imgVersion (img : List Byte) : Nat := be img 12 4
/-- KIND of an image: 1 = base, 2 = customer. -/
def imgKind (img : List Byte) : Nat := be img 6 1
/-- KEY_SLOT of an image. -/
def imgSlot (img : List Byte) : Nat := be img 17 1
/-- N, the sections of an image. -/
def imgN (img : List Byte) : Nat := be img 18 2
/-- CUST_OFS of an image. -/
def imgCust (img : List Byte) : Nat := be img 24 4

/-- The offset at which the key block begins. -/
def keyAt (img : List Byte) : Nat := 256 + 96 * imgN img
/-- The signed part (R428). -/
def signedPart (img : List Byte) : List Byte := img.take (keyAt img + 516)

/-- An entry of the section table (R428). -/
structure Section_ where
  typ : Nat
  off : Nat
  size : Nat
  dest : Nat
  sha : List Byte
  /-- The 16 reserved bytes are 0. -/
  clean : Bool
  deriving DecidableEq, Repr

/-- The section table. -/
def sections (img : List Byte) : List Section_ :=
  (List.range (imgN img)).map (fun i =>
    let o := 256 + 96 * i
    { typ := be img o 4, off := be img (o + 4) 4, size := be img (o + 8) 4, dest := be img (o + 12) 4,
      sha := (img.drop (o + 32)).take 64, clean := ((img.drop (o + 16)).take 16).all (fun b => b == 0#8) })

/-- The bytes of a section. -/
def sectionBytes (img : List Byte) (x : Section_) : List Byte := (img.drop x.off).take x.size

/-! Section contents (R429) -/

/-- The directory words of a SHEETS section. -/
def dirWords (b : List Byte) : List Nat := (chunk 4 256 b).map ofBE

/-- A record of an XY section: engine mask, whether Y, first address, words. -/
structure XyRec where
  mask : Nat
  y : Bool
  start : Nat
  words : List Nat
  deriving DecidableEq, Repr

/-- The records of an XY section; none where one is cut short. -/
def xyRecs : Nat → List Byte → Option (List XyRec)
  | 0, _ => some []
  | _ + 1, [] => some []
  | f + 1, l =>
    let d := be l 0 4
    let n := d % 8192
    if l.length < 4 + 3 * n then none
    else (xyRecs f (l.drop (4 + 3 * n))).map (fun r =>
      { mask := bits d 27 5, y := tb d 26, start := bits d 13 13, words := (chunk 3 n ((l.drop 4).take (3 * n))).map ofBE } :: r)

/-- The records of an XY section. -/
def xyOf (b : List Byte) : Option (List XyRec) := xyRecs b.length b

/-- The pairs of a REGDEF section: native address and value. -/
def regPairs (b : List Byte) : List (Nat × Nat) := (chunk 8 b.length b).map (fun p => (be p 0 4, be p 4 4))

/-! Checks -/

/-- A word of a customer area of X or Y (R303). -/
def custWord (w : Nat) : Bool := (decide (0x0800 ≤ w) && decide (w < 0x1000)) || decide (0x1800 ≤ w)

/-- A section outside what R429 lets its Ream carry. -/
def sectionBad (cust : Bool) (img : List Byte) (x : Section_) : Bool :=
  let b := sectionBytes img x
  match x.typ with
  | 1 =>
    let n := (x.size - 1024) / 8
    decide (x.size < 1024) || x.size % 8 != 0 || decide (32768 < x.dest + n)
      || (cust && (decide (x.dest < 24576 ∧ n ≠ 0) || (((dirWords b).take 256).zip (List.range 256)).any (fun d =>
        tb d.1 31 && (decide (d.2 < 192) || decide (bits d.1 0 15 < 24576)))))
  | 2 =>
    match xyOf b with
    | none => true
    | some l => l.any (fun r => decide (8192 < r.start + r.words.length)
        || (cust && (tb r.mask 4 || (List.range r.words.length).any (fun i => !custWord (r.start + i)))))
  | 3 => cust || decide (65536 < x.dest + x.size)
  | 4 => decide (524288 < x.dest + x.size)
  | 5 => x.size % 8 != 0 || (regPairs b).any (fun p => decide (2 ^ 22 ≤ p.1) || p.1 % 4 != 0
      || (cust && decide (p.1 / 1024 ∈ [secP, nvsP, memP, bistP, thmP])))
  | 6 => cust || x.size != 384
  | _ => true

/-- Two sections overlap. -/
def overlap (x y : Section_) : Bool := decide (x.off < y.off + y.size ∧ y.off < x.off + x.size)

/-- Whether some pair of a list overlaps. -/
def anyOverlap : List Section_ → Bool
  | [] => false
  | x :: r => r.any (overlap x) || anyOverlap r

/-- Check 8: the layout and the destinations; `base` is the VERSION of the base Ream that a customer Ream meets (R428, R429, R431). -/
def layoutBad (cust : Bool) (base : Nat) (img : List Byte) : Bool :=
  let len := imgLength img
  let l := sections img
  decide (0x200000 < len) || decide (imgN img = 0 ∨ 32 < imgN img) || decide (64 < be img 16 1)
    || !((img.take 256).drop 28).all (fun b => b == 0#8)
    || l.any (fun x => x.off % 4 != 0 || decide (x.off < keyAt img + 1028) || decide (len < x.off + x.size) || !x.clean || sectionBad cust img x)
    || anyOverlap l
    || (if cust then imgCust img != 0 || decide (base < be img 20 4)
        else be img 20 4 != 0 || (imgCust img != 0 && (imgCust img % 4096 != 0 || decide (imgCust img < len))))

/-- The digest of a key slot (R430). -/
def keyDigest (s : State) (slot : Nat) : List Byte :=
  (List.range 64).map (fun i => if slot = 0 then Config.vendorKeyDigest i else kget 0 s.sec.keys (64 * slot + i))

/-- Checks 2 to 6 of R431 on an image that should be of a kind: the cause of the first that fails. -/
def reamCause1 (s : State) (cust : Bool) (img : List Byte) : Option Nat :=
  let slot := imgSlot img
  let key := (img.drop (keyAt img)).take 516
  if be img 0 4 ≠ 0x5245414D ∨ be img 4 2 ≠ 1 ∨ be img 7 1 ≠ 0x32 ∨ imgKind img ≠ (if cust then 2 else 1) then some 2
  else if (slot = 0 ↔ cust = true) ∨ 3 < slot ∨ s.sec.progd.getLsbD slot = false ∨ sha512 key ≠ keyDigest s slot ∨ be key 512 4 ≠ 65537 then some 3
  else if s.sec.revoked.getLsbD slot then some 4
  else if be img 16 1 < s.sec.rollF then some 5
  else if rsaPssVerify (be key 0 512) (signedPart img) ((img.drop (keyAt img + 516)).take 512) then none
  else some 6

/-- Checks 7 and 8 of R431. -/
def reamCause2 (cust : Bool) (base : Nat) (img : List Byte) : Option Nat :=
  if (sections img).any (fun x => sha512 (sectionBytes img x) != x.sha) then some 7
  else if layoutBad cust base img then some 8
  else none

/-- Checks 2 to 8 of R431. -/
def reamCause (s : State) (cust : Bool) (base : Nat) (img : List Byte) : Option Nat :=
  reamCause1 s cust img <|> reamCause2 cust base img

/-! Loading -/

/-- Bytes are stored from an address on in whole ECC words, the bytes around them as they read (R298); `fuel` bounds the words. -/
def imageStore : Nat → Nat → List Byte → State → State
  | 0, _, _, s => s
  | f + 1, a, bs, s =>
    if bs.isEmpty then s
    else
      let b := eccBase a
      let k := eccBytes (regionOf (a / 65536))
      let n := k - (a - b)
      let m := min n bs.length
      imageStore f (b + k) (bs.drop n) (memWrite b (s.fetchN b (a - b) ++ bs.take n ++ s.fetchN (a + m) (n - m)) s)

/-- Bytes are stored from an address on. -/
def memStore (a : Nat) (bs : List Byte) (s : State) : State := imageStore (bs.length + 1) a bs s

/-- The Ream's initial value of bytes of ENGM or TBLM, kept for R312. -/
def initPut (a : Nat) (bs : List Byte) (s : State) : State :=
  let m := (bs.foldl (fun (x : KMap Byte × Nat) b => (kput 0 x.1 x.2 b, x.2 + 1)) (s.sec.init, a)).1
  { s with sec := { s.sec with init := m } }

/-- SHEETS: the directory, a customer Ream's from sheet 192 on, and the steps (R196, R429, R432). -/
def loadSheets (cust : Bool) (b : List Byte) (dest : Nat) (s : State) : State :=
  let ds := ((dirWords b).zip (List.range 256)).filter (fun d => !cust || decide (192 ≤ d.2))
  let s := { s with seq := { s.seq with dir := ds.foldl (fun (m : KMap Word) d => kput 0 m d.2 (BitVec.ofNat 32 d.1)) s.seq.dir } }
  let steps := chunk 8 b.length (b.drop 1024)
  each (steps.zip (List.range steps.length)) (fun x s => memWrite (160 * 65536 + 8 * (dest + x.2)) x.1.reverse s) s

/-- XY: initial words of the engines that each record's mask names (R429). -/
def loadXy (b : List Byte) (s : State) : State :=
  each ((xyOf b).getD []) (fun r s =>
    each ((List.range 5).filter (fun e => tb r.mask e)) (fun e s =>
      each (r.words.zip (List.range r.words.length)) (fun x s =>
        let a := engWord e r.y (r.start + x.2)
        initPut a (bytesLE 3 x.1) (memWrite a (bytesLE 3 x.1) s)) s) s) s

/-- TABLES at boot: a nonlinear entry of a live bank goes to both banks (R125, R429). -/
def loadTables (b : List Byte) (dest : Nat) (s : State) : State :=
  let a := 175 * 65536 + dest
  let s := initPut a b (memStore a b s)
  let nl := (b.zip (List.range b.length)).filter (fun x => decide (dest + x.2 < 5120) && (dest + x.2) / 64 % 2 == 0)
  each nl (fun x s => let o := 175 * 65536 + dest + x.2 + 64; initPut o [x.1] (memStore o [x.1] s)) s

/-- TABLES of a downloaded Ream: nonlinear entries go to the pending banks and leave them dirty, and the tables of NCOs with EN = 1 are kept (R124, R435). -/
def loadTablesLive (b : List Byte) (dest : Nat) (s : State) : State :=
  let s := initPut (175 * 65536 + dest) b s
  each (b.zip (List.range b.length)) (fun x s =>
    let o := dest + x.2
    if o < 5120 then
      if o / 64 % 2 = 0 then
        let n : Lane := Fin.ofNat 8 (o / 640)
        let band := o % 640 / 128
        memStore (175 * 65536 + nlOff n band (1 - nlLive s n band) (o % 64)) [x.1] (s.fset (ltxP n) ⟨ltxDirty.off, ltxDirty.lsb + band, 1⟩ 1)
      else s
    else if o < 13312 ∧ tb (s.rd (ra (ncoP ((o - 5120) / 2048)) 0x040)) 0 then s
    else memStore (175 * 65536 + o) [x.1] s) s

/-- Page 00h to 02h of CMIS, upper halves (R369, R429). -/
def loadCmis (b : List Byte) (s : State) : State :=
  each (b.zip (List.range 384)) (fun x s => cmisPut (256 * (x.2 / 128) + 128 + x.2 % 128) x.1 s) s

/-- The sections of an image but REGDEF are loaded (R429, R432). -/
def loadSections (cust : Bool) (img : List Byte) (s : State) : State :=
  each (sections img) (fun x s =>
    let b := sectionBytes img x
    match x.typ with
    | 1 => loadSheets cust b x.dest s
    | 2 => loadXy b s
    | 3 => loadTables b x.dest s
    | 4 => memStore (152 * 65536 + x.dest) b s
    | 6 => loadCmis b s
    | _ => s) s

/-- The REGDEF pairs of an image, in order. -/
def imgPairs (img : List Byte) : List (Nat × Nat) :=
  ((sections img).filter (fun x => x.typ == 5)).flatMap (fun x => regPairs (sectionBytes img x))

/-! Commands -/

/-- A command of SEC_CMD is refused with cause 19; a busy command keeps CMD_STAT (R438, R446). -/
def secRefuse (cmd : Nat) (s : State) : State :=
  let s := ignored secP 0x050 19 s
  if s.flag secP cmdBusy then s else (s.fset secP cmdResult 2).fset secP cmdLast cmd

/-- A command begins. -/
def secStart (cmd : Nat) (s : State) : State :=
  (((s.setFlag secP cmdBusy true).fset secP cmdResult 0).fset secP cmdCause 0).fset secP cmdLast cmd

/-- A command ends with a RESULT and a CAUSE. -/
def secEnd (result cause : Nat) (s : State) : State :=
  ((s.setFlag secP cmdBusy false).fset secP cmdResult result).fset secP cmdCause cause

/-- The registers of a block of words as bytes, each most significant byte first. -/
def regBytes (s : State) (off n : Nat) : List Byte := (List.range n).flatMap (fun i => bytesBE 4 (s.rd (ra secP (off + 4 * i))))

/-- The RWS registers of the device in ascending native address (R437). -/
def rwsList : List Nat :=
  ((List.range 128).flatMap (fun p => (pageRws p).map (fun x => x.1))).mergeSort (fun a b => a ≤ b)

/-- The configuration digest (R437). -/
def configDigest (s : State) : List Byte :=
  let binds := (List.range 64).map bindAddr ++ (List.range 16).map (fun k => ra seqP (0x060 + 4 * k))
  sha512 ((rwsList ++ binds).flatMap (fun a => bytesBE 4 (if 2 ≤ pagePower s (a / 1024) then 0x0FF00FF0 else s.rd a)))

/-- SHA-512 of the fuse shadow (R437). -/
def fuseDigest (s : State) : List Byte :=
  let f : List Nat := [s.sec.progd.toNat, s.sec.revoked.toNat, s.sec.rollF, bit s.sec.lock] ++ (List.range 256).map (fun i => (kget 0 s.sec.keys i).toNat)
  sha512 ((List.range 1024).map (Config.fuseShadowByte f))

/-- Bytes 0 to 319 of the report (R437; log entry 37). -/
def reportBody (s : State) : List Byte :=
  let bc := s.rd (ra secP 0x090)
  bytesBE 4 0x41545331 ++ bytesBE 4 (s.rd (ra 0x000 0x040)) ++ regBytes s 0x060 8
    ++ (s.sec.baseSha ++ List.replicate (64 - s.sec.baseSha.length) 0#8) ++ (s.sec.custSha ++ List.replicate (64 - s.sec.custSha.length) 0#8)
    ++ fuseDigest s ++ configDigest s ++ bytesBE 4 (bc % 65536) ++ bytesBE 4 (bc / 65536) ++ bytesBE 1 s.sec.rollF
    ++ bytesBE 1 (s.fget secP bootSlot) ++ bytesBE 2 s.sec.signed ++ List.replicate 12 0#8

/-- The report starts where ATTEST waits and the identity key is ready. -/
def attestBegin (s : State) : State :=
  if s.sec.attWait && s.flag secP idReadyF && !s.sec.actRun then { s with sec := { s.sec with attWait := false, attBody := some (reportBody s) } } else s

/-- SEC_CMD ATTEST: during DL_ACTIVATE it waits for its end (R437, R445). -/
def attestOp (s : State) : State :=
  if s.sec.actRun then { s with sec := { s.sec with attWait := true } }
  else if s.flag secP cmdBusy then secRefuse 1 s
  else attestBegin (secStart 1 { s with sec := { s.sec with attWait := true } })

/-- ATTEST (R437). -/
def execAttest (s : State) : Host.Outcome State Fault Refusal := nxt (attestOp s)

/-- The primes of the identity key (R436). -/
def idPrimes (s : State) : Nat × Nat := identityPrimes ((List.range 32).map Config.idSeed) (bytesBE 4 (s.rd (ra 0x000 0x040)))

/-- The modulus of the identity key. -/
def idModulus (s : State) : List Byte := let k := idPrimes s; bytesBE 512 (k.1 * k.2)

/-- The signature of bytes with the identity key and a 64-byte salt (R437). -/
def idSign (s : State) (b salt : List Byte) : List Byte :=
  let k := idPrimes s
  rsaPssSign k.1 k.2 b ((salt ++ List.replicate 64 0#8).take 64)

/-- ATTEST_DONE: the report is signed and readable (R437). -/
def execAttestDone (salt : List Byte) (s : State) : Host.Outcome State Fault Refusal :=
  match s.sec.attBody with
  | none => nxt s
  | some b =>
    nxt (secEnd 1 0 { s with sec := { s.sec with attBody := none, report := b ++ idSign s b salt, signed := (s.sec.signed + 1) % 65536 } })

/-- ID_READY: the identity key is derived (R436). -/
def execIdReady (s : State) : Host.Outcome State Fault Refusal :=
  nxt (if s.boot.ready && s.pwr.coreOn && !s.flag secP idReadyF then attestBegin (raise 102 0 (s.setFlag secP idReadyF true)) else s)

/-- Whether R438 accepts a fuse command. -/
def fuseOk (s : State) (unlock : Nat) : Bool :=
  unlock == 0xF05E && s.flag lasP lasVaux && !tb (s.rd (ra 0x000 0x050)) 0 && s.fget thmP thmBand != 4 && !s.flag secP cmdBusy

/-- A blow starts. -/
def blowStart (cmd slot : Nat) (s : State) : State := secStart cmd { s with sec := { s.sec with blow := some ⟨cmd, slot⟩ } }

/-- SEC_CMD ROLL_ADV (R438, R439). -/
def rollAdvOp (unlock : Nat) (s : State) : State :=
  if !fuseOk s unlock then secRefuse 2 s
  else if s.sec.baseRoll ≤ s.sec.rollF then secEnd 1 0 (secStart 2 s)
  else blowStart 2 0 s

/-- ROLL_ADV (R439). -/
def execRollAdv (unlock : BitVec 16) (s : State) : Host.Outcome State Fault Refusal := nxt (rollAdvOp unlock.toNat s)

/-- SEC_CMD KEY_PROG: slot 1 to 3, unprogrammed (R438, R440). -/
def keyProgOp (unlock slot : Nat) (s : State) : State :=
  if !fuseOk s unlock || slot == 0 || s.sec.progd.getLsbD slot then secRefuse 3 s
  else
    let h := (regBytes s 0x0A0 16).zip (List.range 64)
    blowStart 3 slot { s with sec := { s.sec with keys := h.foldl (fun (m : KMap Byte) x => kput 0 m (64 * slot + x.2) x.1) s.sec.keys } }

/-- KEY_PROG (R440). -/
def execKeyProg (unlock : BitVec 16) (slot : BitVec 2) (s : State) : Host.Outcome State Fault Refusal := nxt (keyProgOp unlock.toNat slot.toNat s)

/-- SEC_CMD KEY_REVOKE (R438, R440). -/
def keyRevokeOp (unlock slot : Nat) (s : State) : State :=
  if !fuseOk s unlock || slot == 0 then secRefuse 4 s else blowStart 4 slot s

/-- KEY_REVOKE (R440). -/
def execKeyRevoke (unlock : BitVec 16) (slot : BitVec 2) (s : State) : Host.Outcome State Fault Refusal := nxt (keyRevokeOp unlock.toNat slot.toNat s)

/-- SEC_CMD OBS_LOCK (R438, R441). -/
def obsLockOp (unlock : Nat) (s : State) : State := if !fuseOk s unlock then secRefuse 5 s else blowStart 5 0 s

/-- OBS_LOCK (R441). -/
def execObsLock (unlock : BitVec 16) (s : State) : Host.Outcome State Fault Refusal := nxt (obsLockOp unlock.toNat s)

/-- FUSE_BLOW_DONE: the fuse is read back; one that reads blown takes force at once, and ROLL_ADV goes on with the next of the counter until F equals the ROLLBACK of the base Ream (R438 to R441). -/
def execFuseBlowDone (ok : Bool) (s : State) : Host.Outcome State Fault Refusal :=
  match s.sec.blow with
  | none => nxt s
  | some b =>
    let s := { s with sec := { s.sec with blow := none } }
    nxt (if !ok then secEnd 3 0 s
    else
      let kind := if b.cmd = 2 then 3 else if b.cmd = 3 then 0 else if b.cmd = 4 then 1 else 2
      let s := raise 101 (b.slot + 4 * kind) (blowApply b s)
      if b.cmd = 2 ∧ s.sec.rollF < min 64 s.sec.baseRoll then { s with sec := { s.sec with blow := some b } }
      else
        let s := secEnd 1 0 s
        if b.cmd = 2 then raise 100 s.sec.rollF s else if b.cmd = 5 then capLocked s else s)

/-! Download -/

/-- DL_ADDR, word index. -/
def dlAddr : Fld := ⟨0x058, 2, 19⟩

/-- A write of DL_DATA: the word enters the buffer, CAP0 is taken, and an earlier DL_VERIFY no longer stands; while the buffer is read it is discarded (R434, R446; log entry 35). -/
def dlDataOp (v : Nat) (s : State) : State :=
  if s.sec.progSlot.isSome || s.sec.actRun || !s.pwr.coreOn then ignored secP 0x05C 17 s
  else
    let s := { s with sec := { s.sec with dlTaken := true, verified := none } }
    let s := capStopOp 0 s
    (memStore (4 * s.fget secP dlAddr) (bytesBE 4 v) s).fadd secP dlAddr 1

/-- DL_DATA_WRITE (R434). -/
def execDlDataWrite (value : Word) (s : State) : Host.Outcome State Fault Refusal := nxt (dlDataOp value.toNat s)

/-- The image in the download buffer. -/
def dlImage (s : State) : List Byte :=
  let len := ofBE (s.fetchN 8 4)
  s.fetchN 0 (max 256 (min len 0x200000))

/-- The errors of the image's words as the device reads it (R307, R309). -/
def dlMet (s : State) : State :=
  let len := (dlImage s).length
  ownerMet ((((s.chk.filter (fun c => decide (c.1 < len))).map (fun c => (c.1 / 65536, c.1 % 65536 / 8)))).eraseDups) s

/-- SEC_CMD DL_VERIFY (R434, R448). -/
def dlVerifyOp (s : State) : State :=
  if s.flag secP cmdBusy || !s.pwr.coreOn then secRefuse 6 s
  else
    let img := dlImage s
    let cust := imgKind img == 2
    let s := secStart 6 (dlMet s)
    match reamCause s cust (s.rd (ra secP 0x048)) img with
    | some c => raise 99 c (raise 96 (48 + c) (secEnd 3 c { s with sec := { s.sec with verified := none } }))
    | none => raise 98 6 (secEnd 1 0 { s with sec := { s.sec with verified := some (if cust then 2 else 1) } })

/-- DL_VERIFY (R434). -/
def execDlVerify (s : State) : Host.Outcome State Fault Refusal := nxt (dlVerifyOp s)

/-- The flash address of a slot (R426). -/
def slotBase (slot : Nat) : Nat := 0x200000 * slot

/-- SEC_CMD DL_PROGRAM: a passed DL_VERIFY, and a slot that the Ream in force did not come from; the slot is erased first (R434). -/
def dlProgramOp (slot : Nat) (s : State) : State :=
  if s.flag secP cmdBusy || !s.pwr.coreOn || s.sec.verified.isNone || decide (2 ≤ slot) || s.fget secP bootSlot == slot then secRefuse 8 s
  else flashErase (slotBase slot) 0x200000 (secStart 8 { s with sec := { s.sec with progSlot := some slot } })

/-- DL_PROGRAM (R434). -/
def execDlProgram (slot : BitVec 2) (s : State) : Host.Outcome State Fault Refusal := nxt (dlProgramOp slot.toNat s)

/-- DL_PROGRAM_DONE: the image with its header last, and the BOOT record; a read-back that fails leaves no header (R434, R448). -/
def execDlProgramDone (ok : Bool) (s : State) : Host.Outcome State Fault Refusal :=
  match s.sec.progSlot with
  | none => nxt s
  | some slot =>
    if s.nv.hold then nxt s
    else
    let img := dlImage s
    let body := (img.take (imgLength img)).drop 256
    let s := dlMet s
    let s := flashPut (slotBase slot + 256) body { s with sec := { s.sec with progSlot := none } }
    nxt (if ok then
      let s := flashPut (slotBase slot) (img.take 256) s
      let (_, boots, falls) := bootState s
      raise 98 8 (secEnd 1 0 (bootRecord slot boots falls s))
    else raise 99 1 (secEnd 3 1 (raise 113 2 s)))

/-- SEC_CMD DL_ACTIVATE: a passed DL_VERIFY of a base image; the engines are drained (R434, R435). -/
def dlActivateOp (s : State) : State :=
  if s.flag secP cmdBusy || s.sec.verified != some 1 || s.fget pwrP pwrState != 0 || !s.pwr.coreOn then secRefuse 7 s
  else drainStart 2 (secStart 7 { s with sec := { s.sec with actRun := true } })

/-- DL_ACTIVATE (R435). -/
def execDlActivate (s : State) : Host.Outcome State Fault Refusal := nxt (dlActivateOp s)

/-- SEC_CMD DL_ABORT: the buffer is empty and CAP0 returns (R434). -/
def dlAbortOp (s : State) : State :=
  if s.flag secP cmdBusy then secRefuse 9 s
  else secEnd 1 0 (secStart 9 { s with sec := { s.sec with dlTaken := false, verified := none } })

/-- DL_ABORT (R434). -/
def execDlAbort (s : State) : Host.Outcome State Fault Refusal := nxt (dlAbortOp s)

/-- SEC_CMD SET_PREF: a BOOT record that names slot A or B (R443). -/
def setPrefOp (slot : Nat) (s : State) : State :=
  if s.flag secP cmdBusy || decide (2 ≤ slot) then secRefuse 10 s
  else
    let (_, boots, falls) := bootState s
    secEnd 1 0 (bootRecord slot boots falls (secStart 10 s))

/-- SET_PREF (R443). -/
def execSetPref (slot : BitVec 2) (s : State) : Host.Outcome State Fault Refusal := nxt (setPrefOp slot.toNat s)

/-- A write of SEC_CMD (R446). -/
def secCmdOp (v : Nat) (s : State) : State :=
  let arg := bits v 4 2
  let key := bits v 16 16
  match v % 16 with
  | 1 => attestOp s
  | 2 => rollAdvOp key s
  | 3 => keyProgOp key arg s
  | 4 => keyRevokeOp key arg s
  | 5 => obsLockOp key s
  | 6 => dlVerifyOp s
  | 7 => dlActivateOp s
  | 8 => dlProgramOp arg s
  | 9 => dlAbortOp s
  | 10 => setPrefOp arg s
  | c => secRefuse c s

/-- A word of DL_DATA, RPT_DATA or ID_DATA as it reads, and the state with the index advanced (R446). -/
def secDataRead (off : Nat) (s : State) : Nat × Bool × State :=
  if off = 0x05C then
    let a := 4 * s.fget secP dlAddr
    let (_, ue, s1) := readWord .management (a / 65536) (a % 65536 / 8) s
    (ofBE (s.fetchN a 4), ue, s1.fadd secP dlAddr 1)
  else
    let f : Fld := ⟨off - 4, 2, 8⟩
    let i := s.fget secP f
    let bs : List Byte := if off = 0x084 then s.sec.report else if s.flag secP idReadyF then idModulus s else []
    (ofBE (((bs.drop (4 * i)).take 4 ++ List.replicate 4 0#8).take 4), false, s.fadd secP f 1)

end Sys2Proof.Machine
end

