-- ==== Sys2Proof/Machine/Bus0.lean ====
section
/-! DEFINITION. The page ports: what a read of a native address answers and does, what a write does, and how the gateway answers for pages that do not (R6, R10, R11, R27, R192, R358, R372, R373, R379). RST_CTRL is written in Machine/Bus.lean, since its write runs the bring-up. -/

namespace Sys2Proof.Machine

/-! The gateway -/

/-- PG_CTRL.EN (R373). -/
def pgCtrlEn : Fld := ⟨0x008, 0, 1⟩

/-- Why the gateway answers an access in the page's place, as LAST_ERR codes it; none where the page answers (R358, R379, R382). -/
def gateCause (s : State) (p off : Nat) : Option Nat :=
  if s.shut && !(p == 0x002 || (p == 0x000 && (off == 0x000 || off == 0x040))) then some 7
  else match pagePower s p with
    | 0 | 1 => none
    | 2 => some 2
    | 3 => some 1
    | 4 => some 3
    | _ => some 6

/-- An access that the gateway answers: LAST_ERR and event 128 (R379). -/
def gateAnswer (p off cause : Nat) (write : Bool) (port : Port) (s : State) : State :=
  raise 128 (p % 128) (lastErr p off cause write (port == .spi) s)

/-- A block's operation with LAST_ERR as its access records it: PORT is 1 where the access came over SPI (R382). -/
def asPort (port : Port) (f : State → State) (s : State) : State :=
  let a := ra 0x006 0x044
  let old := s.rd a
  let s := f (s.wr a 0)
  if s.rd a = 0 then s.wr a old else if port == .spi then s.wr a (setBits (s.rd a) 27 1 1) else s

/-! Reads -/

/-- A register that shows what an operation of its read leaves in it. -/
def readBy (a : Nat) (f : State → State) (s : State) : Nat × State := let s := f s; (s.rd a, s)

/-- A word of a memory as a register window shows it: 0xEEEE_EEEE with LAST_ERR cause 4 where it is uncorrectable (R305, R379). -/
def readWindow (p off m w : Nat) (v : State → Nat) (s : State) : Nat × State :=
  let (_, ue, s1) := readWord .management m w s
  if ue then (0xEEEEEEEE, lastErr p off 4 false false s1) else (v s, s1)

/-- A read of a header register (R373, R385). -/
def headRead (p off : Nat) (s : State) : Nat × State :=
  let a := ra p off
  if off = 0x00C then (eventWord (eventsAt a) s.evt.stat, s)
  else if off = 0x010 then (eventWord (eventsAt a) s.evt.mask, s)
  else if off = 0x014 ∨ off = 0x01C then (0, s)
  else (s.rd a, s)

/-- PG_STATE of a page as the gateway holds it (R381). -/
def pgqState (s : State) : Nat :=
  let q := s.rd (ra 0x000 0x054) % 4096
  setBits (s.rd (ra q 0x004)) 0 3 (pagePower s q)

/-- A read of a register of EVT (R391, R403). -/
def evtRead (off : Nat) (s : State) : Nat × State :=
  let a := ra evtP off
  if off = 0x044 then
    (s.evt.unread + bit (s.flag evtP logEmpty) * 2 ^ 11 + bit (decide (0 < s.evt.lossSince ∧ s.evt.unread = ringSize)) * 2 ^ 12, s)
  else if off = 0x048 then readBy a logLoReadOp s
  else if off = 0x058 then (s.evt.seq % 2 ^ 32, s)
  else if 0x080 ≤ off ∧ off < 0x0C0 then (eventWord (eventsAt a) s.evt.stat, s)
  else if 0x0C0 ≤ off ∧ off < 0x100 then (eventWord (eventsAt a) s.evt.mask, s)
  else (s.rd a, s)

/-- Requests queued at a priority (R208). -/
def queuedAt (s : State) (p : Nat) : Nat := (s.seq.queue.filter (fun r => r.prio == p)).length

/-- A read of a register of SEQ (R196, R205, R208). -/
def seqRead (off : Nat) (s : State) : Nat × State :=
  if off = 0x044 then (queuedAt s 0 % 128 + queuedAt s 1 % 128 * 2 ^ 8 + queuedAt s 2 % 128 * 2 ^ 16, s)
  else if off = 0x048 then
    (s.rd (ra seqP off), s.fset seqP occPeak (s.fget seqP occNow))
  else if off = 0x058 then (s.dirOf (s.rd (ra seqP 0x054) % 256), s)
  else (s.rd (ra seqP off), s)

/-- ENG_STAT as it reads (R207). -/
def engStat (s : State) (e : Eng) : Nat :=
  let g := s.eng[e]
  let st := match g.phase with
    | .idle => if s.flag (engP e) engEn then 0 else 3
    | .waiting _ => 2
    | .running | .loading _ | .stFull => 1
  st + g.sheet % 256 * 2 ^ 2 + g.inst % 16 * 2 ^ 10 + g.pc % 2 ^ 15 * 2 ^ 14

/-- XY_ADDR advances by 1 where AUTO_INC asks (R207). -/
def xyStep (e : Eng) (s : State) : State :=
  if s.flag (engP e) ⟨0x04C, 14, 1⟩ then s.fadd (engP e) ⟨0x04C, 0, 13⟩ 1 else s

/-- A read of XY_DATA (R178, R207). -/
def xyRead (e : Eng) (s : State) : Nat × State :=
  let w := s.rd (ra (engP e) 0x04C)
  let m := 164 + 2 * e.val + bits w 13 1
  let (v, s) := readWindow (engP e) 0x050 m (bits w 0 13) (fun s => ofLE (s.fetchN (m * 65536 + 3 * bits w 0 13) 3)) s
  (v, xyStep e s)

/-- A write of XY_DATA (R178, R207). -/
def xyWrite (e : Eng) (v : Nat) (s : State) : State :=
  let w := s.rd (ra (engP e) 0x04C)
  xyStep e (engMemWrite e (tb w 13) (bits w 0 13) v s)

/-- A read of a register of ENGk (R207). -/
def engRead (e : Eng) (off : Nat) (s : State) : Nat × State :=
  if off = 0x044 then (engStat s e, s)
  else if off = 0x048 then (s.eng[e].steps % 2 ^ 17 + s.eng[e].flg.toNat * 2 ^ 17, s)
  else if off = 0x050 then xyRead e s
  else (s.rd (ra (engP e) off), s)

/-- REP_DATA of the macro that REP_SEL names (R319). -/
def repData (s : State) : Nat :=
  let m := s.rd (ra memP 0x09C) % 256
  let f := (Config.fuseRepair m).toNat
  let v := kget 0 s.rep m
  let used (lsb n : Nat) : Nat := ((List.range n).filter (fun i => tb v (lsb + i))).length
  bits f 0 3 + used 0 4 * 2 ^ 3 + bits f 3 2 * 2 ^ 6 + used 4 2 * 2 ^ 8 + bits v 6 1 * 2 ^ 10

/-- The pages of a range that are UNUSABLE, as bits from an LSB on. -/
def unusableBits (s : State) (page n lsb : Nat) : Nat :=
  (List.range n).foldl (fun a i => a + bit (s.bad (page + i)) * 2 ^ (lsb + i)) 0

/-- A read of a register of BIST (R210, R214, R226). -/
def bistRead (off : Nat) (s : State) : Nat × State :=
  let a := ra bistP off
  let n : Lane := Fin.ofNat 8 ((off - 0x040) / 0x20)
  let o := (off - 0x040) % 0x20 + 0x040
  if off < 0x140 ∧ o = 0x044 then readBy a (calStatRead n) s
  else if off < 0x140 ∧ o = 0x05C then (corrOf s n (s.fget bistP ⟨0x058 + 0x20 * n, 0, 7⟩), s)
  else if off < 0x140 ∧ o = 0x054 then (0, s)
  else if off = 0x14C then
    (bits (s.rd a) 23 9 * 2 ^ 23 + unusableBits s 0x020 8 0 + unusableBits s 0x028 8 8 + unusableBits s 0x010 5 16 + unusableBits s 0x060 2 21, s)
  else if off = 0x150 then (bits (s.rd a) 16 16 * 2 ^ 16 + unusableBits s 0x040 16 0, s)
  else (s.rd a, s)

/-- A read of a register of a converter (R253, R258, R267). -/
def hkRead (b : Fin 2) (off : Nat) (s : State) : Nat × State :=
  let a := ra (hkP b) off
  if 0x090 ≤ off ∧ off < 0x1D4 ∧ (off - 0x090) % 0x14 = 0 then readBy a (resRead b (Fin.ofNat 17 ((off - 0x090) / 0x14))) s
  else if off = 0x1F0 then (fcCoefRead s b, fcCoefWrite b none s)
  else (s.rd a, s)

/-- A read of a register of WMKn (R282, R283, R295). -/
def wmkRead (n : Lane) (off : Nat) (s : State) : Nat × State :=
  let p := wmkP n
  if off = 0x054 then readBy (ra p off) (txCtrlRead n) s
  else if off = 0x05C then
    (kget (0 : Word) s.wmk[n].txBuf (s.fget p ⟨0x058, 2, 6⟩) |>.toNat, s.fadd p ⟨0x058, 2, 6⟩ 1)
  else if off = 0x06C then (rxWord s n (s.fget p ⟨0x068, 2, 6⟩), s.fadd p ⟨0x068, 2, 6⟩ 1)
  else (s.rd (ra p off), s)

/-- A read of a register of CAPk (R225, R423). -/
def capRead (k : Fin 4) (off : Nat) (s : State) : Nat × State :=
  let a := ra (capP k) off
  if off = 0x040 then (if k = 3 ∧ s.ist.redirected.isSome = true then 8 else s.rd a, s)
  else if off = 0x0D0 then readBy a (capDataRead k) s
  else if off = 0x0D4 then (s.rd a, capDataHi k s)
  else (s.rd a, s)

/-- A read of a register of a page that answers: its value, and the state after the read's side effects (R363, R373). -/
def pageRead (k : Kind) (i p off : Nat) (s : State) : Nat × State :=
  let a := ra p off
  if off < 0x040 then headRead p off s
  else match k with
  | .sys => if off = 0x058 then (pgqState s, s) else (s.rd a, s)
  | .pwr =>
    if 0x080 ≤ off ∧ off < 0x0A0 ∧ s.running (Fin.ofNat 8 ((off - 0x080) / 4)) = false then (0x7FFF7FFF, s)
    else (s.rd a, s)
  | .evt => evtRead off s
  | .sec =>
    if off = 0x05C ∨ off = 0x084 ∨ off = 0x08C then
      let (v, ue, s) := secDataRead off s
      if ue then (0xEEEEEEEE, lastErr p off 4 false false s) else (v, s)
    else (s.rd a, s)
  | .nvs =>
    if off = 0x05C then ((kget (0 : Word) s.nv.buf (s.fget p ⟨0x058, 2, 9⟩)).toNat, s.fadd p ⟨0x058, 2, 9⟩ 1) else (s.rd a, s)
  | .obs => if off = 0x048 then readBy a valueLoReadOp s else if off = 0x05C then readBy a snapTsRead s else (s.rd a, s)
  | .mem => if off = 0x0A0 then (repData s, s) else (s.rd a, s)
  | .seq => seqRead off s
  | .lat =>
    if off = 0x048 then readBy a latStatRead s
    else if off = 0x058 then readBy a dtcLoRead s
    else if off = 0x064 then readBy a ppsTsLoRead s
    else (s.rd a, s)
  | .eng => engRead (Fin.ofNat 5 i) off s
  | .cap => capRead (Fin.ofNat 4 i) off s
  | .lrx => if off = 0x068 then readBy a (gradStatRead p) s else (s.rd a, s)
  | .hrx => if off = 0x060 then readBy a (gradStatRead p) s else (s.rd a, s)
  | .ltx =>
    if off = 0x074 then readBy a (nlAccess (Fin.ofNat 8 i) none) s
    else if off = 0x07C then readBy a (wavData (Fin.ofNat 8 i) none) s
    else (s.rd a, s)
  | .wmk => wmkRead (Fin.ofNat 8 i) off s
  | .hka => hkRead 0 off s
  | .hkb => hkRead 1 off s
  | .adac =>
    if off = 0x110 ∨ off = 0x130 then (s.rd a, s.wr a (setBits (s.rd a) 1 1 0))
    else if off = 0x0B8 then (adacStat s, s)
    else (s.rd a, s)
  | .nco =>
    let n : Fin 4 := Fin.ofNat 4 i
    if off = 0x058 then (ncoStat s n, s)
    else if off = 0x054 then
      let o := ncoOff n (s.fget p ⟨0x050, 0, 10⟩)
      let (v, s) := readWindow p off 175 (o / 4) (fun s => tblEntry s o 2) s
      (v, tblStep n s)
    else (s.rd a, s)
  | .las =>
    if off = 0x0C8 then
      let c := s.rd (ra p 0x0C4)
      let o := compOff (bits c 0 3) (bits c 3 3)
      readWindow p off 175 (o / 4) (fun s => tblEntry s o 2) s
    else if off = 0x0CC then (setBits (s.rd a) 2 1 (bit s.shut), s)
    else (s.rd a, s)
  | .bist => bistRead off s
  | .thm | .mgt | .clk | .xbar | .trc | .lfm | .htx => (s.rd a, s)

/-- A read of a native word through a port: its value, or the gateway's answer (R11, R363, R379). -/
def busRead (port : Port) (addr : Nat) (s : State) : Nat × State :=
  let p := addr / 1024
  let off := addr % 1024 / 4 * 4
  match gateCause s p off with
  | some c => (0x0FF00FF0, gateAnswer p off c false port s)
  | none =>
    match pageOf p with
    | none => (0, s)
    | some (k, i) =>
      match rowAt k (liveOff off).1 with
      | none => (0, s)
      | some (r, _) =>
        if (liveOff off).2 then (if r.rws = 0 then 0 else s.rd (ra p off), s)
        else
          let v := (pageRead k i p off s).1
          (v, asPort port (fun s => (pageRead k i p off s).2) s)

/-! Writes -/

/-- Registers that a write acts on though it stores none of its bits: strobes, write-1-to-clear bits, commands and data windows (R10, R373). -/
def actsOnWrite (k : Kind) (off : Nat) : Bool :=
  if off < 0x040 then off == 0x00C || off == 0x010 || off == 0x014 || off == 0x01C
  else match k with
  | .sys => off == 0x044 || off == 0x048 || off == 0x04C
  | .evt => off == 0x050 || (0x080 ≤ off && off < 0x100)
  | .sec => off == 0x050 || off == 0x05C
  | .nvs => off == 0x050 || off == 0x05C
  | .obs | .cap => off == 0x040
  | .mem => off == 0x048 || off == 0x068 || off == 0x090
  | .seq => off == 0x050
  | .eng => off == 0x040 || off == 0x050
  | .ltx => off == 0x074 || off == 0x07C
  | .wmk => off == 0x054 || off == 0x05C || off == 0x064 || off == 0x09C
  | .hka | .hkb => off == 0x088 || off == 0x1E4 || off == 0x1F0
  | .adac => off == 0x0B0
  | .nco => off == 0x054
  | .las => off == 0x0C8
  | .bist => off == 0x154 || (off < 0x140 && ((off - 0x040) % 0x20 == 0x14 || (off - 0x040) % 0x20 == 0x1C))
  | _ => false

/-- A native word that a register lies at whose every bit is read-only (R10, R284). -/
def readOnly (addr : Nat) : Bool :=
  let off := addr % 1024 / 4 * 4
  match pageOf (addr / 1024) with
  | none => false
  | some (k, _) =>
    match rowAt k (liveOff off).1 with
    | none => false
    | some (r, _) => if (liveOff off).2 then r.rws == 0 else r.rw ||| r.rwe == 0 && !actsOnWrite k off

/-- The plain store of a live register: its RW and RWE bits (R10, R11). -/
def regStore (k : Kind) (p off v : Nat) (s : State) : State :=
  match rowAt k off with
  | none => s
  | some (r, _) =>
    let m := r.rw ||| r.rwe
    if m = 0 then s else s.wr (ra p off) (r.store m (s.rd (ra p off)) v)

/-- A write of a staging twin; during a press of its page it is held until the press ends (R6, R377). -/
def twinStore (r : Row) (p off v : Nat) (s : State) : State :=
  if r.rws = 0 then s
  else
    let x := v &&& r.rws
    if inPress s p then { s with twinHeld := s.twinHeld ++ [(ra p off, BitVec.ofNat 32 x)] } else s.wr (ra p off) x

/-- A write of PG_CTRL: EN is stored, and PARK parks or unparks (R373, R374). -/
def pgCtrlWrite (p v : Nat) (s : State) : State :=
  let was := s.flag p pgCtrlPark
  let s := s.setFlag p pgCtrlEn (tb v 0)
  if tb v 1 && !was then parkOp p s else if !tb v 1 && was then unparkOp p s else s

/-- A write of PRESS_CTRL (R373, R375). -/
def pressCtrlWrite (p v : Nat) (s : State) : State :=
  if tb v 0 && tb v 1 then ignored p 0x01C 20 s
  else if tb v 0 then pressPages false [p] s
  else if tb v 1 then discardOp p s
  else s

/-- A write of a header register (R373). -/
def headWrite (p off v : Nat) (s : State) : State :=
  if off = 0x008 then pgCtrlWrite p v s
  else if off = 0x00C then evtClearOp (ra p off) v [] s
  else if off = 0x010 then evtMaskOp (ra p off) v s
  else if off = 0x014 then evtForceOp p v s
  else if off = 0x01C then pressCtrlWrite p v s
  else s

/-- A write of a register of PWR (R326, R327, R329, R339, R346). -/
def pwrWrite (off v : Nat) (s : State) : State :=
  if off = 0x040 then
    let s := (s.setFlag pwrP ⟨0x040, 0, 1⟩ (tb v 0)).setFlag pwrP ⟨0x040, 2, 1⟩ (tb v 2)
    let s := lpReqOp (tb v 1) s
    if tb v 3 then pwrWakeOp s else s
  else if off = 0x05C then duskExitOp (bits v 16 8) (regStore .pwr pwrP off v s)
  else if off = 0x060 then vcoreReqOp (v % 64) s
  else regStore .pwr pwrP off v s

/-- A write of a register of NVS (R443, R445, R447). -/
def nvsWrite (off v : Nat) (s : State) : State :=
  if off = 0x050 then
    onlyIf (tb v 2) blackboxOp (onlyIf (tb v 1) recReadOp (onlyIf (tb v 0) recWriteOp s))
  else if off = 0x05C then
    let i := s.fget nvsP ⟨0x058, 2, 9⟩
    { s with nv := { s.nv with buf := kput 0 s.nv.buf i (BitVec.ofNat 32 v) } }.fadd nvsP ⟨0x058, 2, 9⟩ 1
  else regStore .nvs nvsP off v s

/-- A write of a register of MEM (R308, R311, R315). -/
def memRegWrite (off v : Nat) (s : State) : State :=
  if off = 0x048 then leakTWrite v s
  else if off = 0x068 then flipMaskWrite v s
  else if off = 0x090 then onlyIf (tb v 8) ueClear s
  else regStore .mem memP off v s

/-- A write of a register of CAPk (R416, R417, R419, R423). -/
def capWrite (k : Fin 4) (off v : Nat) (s : State) : State :=
  if off = 0x040 then
    let s := if k = 3 ∧ s.ist.redirected = none then s.setFlag (capP k) ⟨0x040, 3, 1⟩ (tb v 3) else s
    onlyIf (tb v 2) (capForceOp k) (onlyIf (tb v 1) (capStopOp k) (onlyIf (tb v 0) (capArmOp k) s))
  else regStore .cap (capP k) off v s

/-- A write of a register of WMKn (R280, R282, R283, R289, R295). -/
def wmkWrite (n : Lane) (off v : Nat) (s : State) : State :=
  let p := wmkP n
  if off = 0x040 then
    let was := tb (s.rd (ra p off)) 6
    let s := regStore .wmk p off v s
    onlyIf (was && !tb v 6) (wmkRxOff n) s
  else if off = 0x054 then onlyIf (tb v 0) (wmkSendOp n) s
  else if off = 0x05C then
    let i := s.fget p ⟨0x058, 2, 6⟩
    (s.setWmk n (fun w => { w with txBuf := kput 0 w.txBuf i (BitVec.ofNat 32 v) })).fadd p ⟨0x058, 2, 6⟩ 1
  else if off = 0x064 then onlyIf (tb v 0) (rxReleaseOp n) s
  else if off = 0x098 then
    let s := s.fset p ⟨off, 0, 2⟩ v
    onlyIf (tb v 2) (flareSendOp n (v % 4) true) s
  else if off = 0x09C then s.wr (ra p off) (s.rd (ra p off) &&& (0xFFFFFFFF ^^^ (v % 8)))
  else regStore .wmk p off v s

/-- A write of a register of a converter (R249, R265, R267, R271). -/
def hkWrite (b : Fin 2) (k : Kind) (off v : Nat) (s : State) : State :=
  if off = 0x088 then onlyIf (tb v 0) (hostReq b) s
  else if off = 0x1E4 then
    fcShift b v (tb v 0) (onlyIf (bits v 11 2 != 0) (fcCommitOp b (bits v 11 2)) s)
  else if off = 0x1F0 then fcCoefWrite b (some v) s
  else regStore k (hkP b) off v s

/-- A write of a register of ADAC (R229, R230, R236, R254). -/
def adacWrite (off v : Nat) (s : State) : State :=
  if 0x040 ≤ off ∧ off < 0x060 then holdLbWrite (Fin.ofNat 8 ((off - 0x040) / 4)) v s
  else if off = 0x0B0 then strobe (v % 16) s
  else if off = 0x0B4 then lasSettle (regStore .adac adacP off v s)
  else if off = 0x104 ∨ off = 0x108 ∨ off = 0x124 ∨ off = 0x128 then
    let p : Fin 2 := if off < 0x120 then 0 else 1
    let st := s.rd (mi2c p 0x110)
    if tb st 0 then s.wr (mi2c p 0x110) (setBits st 7 1 1)
    else
      let s := regStore .adac adacP off v s
      onlyIf (off % 0x20 == 4 && tb v 13) (mi2cStartOp p) s
  else regStore .adac adacP off v s

/-- A write of a register of NCOk (R232). -/
def ncoWrite (k : Fin 4) (off v : Nat) (s : State) : State :=
  if off = 0x040 then onlyIf (tb v 1) (ncoRestartOp k) (regStore .nco (ncoP k) off v s)
  else if off = 0x054 then ncoTblWrite k v s
  else regStore .nco (ncoP k) off v s

/-- A write of a register of LAS (R233, R237, R239, R257). -/
def lasWrite (off v : Nat) (s : State) : State :=
  if 0x040 ≤ off ∧ off < 0x060 then
    let n : Lane := Fin.ofNat 8 ((off - 0x040) / 4)
    let on := s.flag lasP (lbEn n)
    let dis := s.flag lasP (lbSwDis n)
    let s := regStore .las lasP off v s
    let s := (s.setFlag lasP (lbEn n) on).setFlag lasP (lbSwDis n) dis
    let s := lbEnWrite n (tb v 0) s
    let s := onlyIf (tb v 1) (clrFaultOp n) s
    swDisWrite n (tb v 17) s
  else if 0x060 ≤ off ∧ off < 0x080 then clampCheck (Fin.ofNat 8 ((off - 0x060) / 4)) (regStore .las lasP off v s)
  else if off = 0x0C0 then
    let old := s.rd (ra lasP off)
    each (List.finRange 8) (fun n s => lasDisCheck (tb v (16 + n.val) && !tb old (16 + n.val)) n s) (regStore .las lasP off v s)
  else if off = 0x0C8 then
    let c := s.rd (ra lasP 0x0C4)
    let n : Lane := Fin.ofNat 8 (bits c 0 3)
    clampCheck n (tblWrite (compOff n (bits c 3 3)) (bytesLE 2 v) s)
  else regStore .las lasP off v s

/-- A write of a register of BIST (R211, R214, R216, R219, R223, R226). -/
def bistWrite (off v : Nat) (s : State) : State :=
  let n : Lane := Fin.ofNat 8 ((off - 0x040) / 0x20)
  let o := (off - 0x040) % 0x20 + 0x040
  if off < 0x140 ∧ o = 0x040 then calCheck n (regStore .bist bistP off v s)
  else if off < 0x140 ∧ o = 0x054 then
    onlyIf (tb v 2) (fgReqOp n) (onlyIf (tb v 1) (calSwapOp n) (onlyIf (tb v 0) (calVerifyOp n) s))
  else if off < 0x140 ∧ o = 0x05C then corrDataOp n v s
  else if off = 0x154 then istStartOp v s
  else regStore .bist bistP off v s

/-- A write of a live register of a page that answers; one that clears GRAD_EN discards the accumulating set (R10, R98, R373). -/
def pageWrite (k : Kind) (i p off v : Nat) (s : State) : State :=
  if off < 0x040 then headWrite p off v s
  else match k with
  | .sys =>
    if off = 0x044 then epochStrobe (v % 256) s
    else if off = 0x048 then onlyIf (tb v 0) pressGoOp s
    else regStore k p off v s
  | .pwr => pwrWrite off v s
  | .thm => if 0x080 ≤ off ∧ off < 0x098 then tsCfgWritten (regStore k p off v s)
    else regStore k p off v s
  | .evt =>
    if off = 0x050 then onlyIf (tb v 0) logPopOp s
    else if 0x080 ≤ off ∧ off < 0x0C0 then evtClearOp (ra p off) v [] s
    else if 0x0C0 ≤ off ∧ off < 0x100 then evtMaskOp (ra p off) v s
    else regStore k p off v s
  | .sec => if off = 0x050 then secCmdOp v s else if off = 0x05C then dlDataOp v s else regStore k p off v s
  | .nvs => nvsWrite off v s
  | .obs =>
    if off = 0x040 then onlyIf (tb v 2) obsAckOp (onlyIf (tb v 0) (obsSnapOp (tb v 1)) s) else regStore k p off v s
  | .mem => memRegWrite off v s
  | .seq =>
    if off = 0x050 then fire 6 (v % 512) s
    else if 0x060 ≤ off ∧ off < 0x0A0 then tmrWriteOp (Fin.ofNat 16 ((off - 0x060) / 4)) v s
    else regStore k p off v s
  | .lat => if off = 0x040 then latCtrlWrite v s else if off = 0x044 then latSelWrite v s else regStore k p off v s
  | .eng =>
    let e : Eng := Fin.ofNat 5 i
    if off = 0x040 then
      let s := engEnOp e (tb v 0) s
      if tb v 1 then abortRun e 8 s.eng[e].pc s else s
    else if off = 0x050 then xyWrite e v s
    else regStore k p off v s
  | .cap => capWrite (Fin.ofNat 4 i) off v s
  | .ltx =>
    if off = 0x074 then nlAccess (Fin.ofNat 8 i) (some v) s
    else if off = 0x07C then wavData (Fin.ofNat 8 i) (some v) s
    else regStore k p off v s
  | .wmk => wmkWrite (Fin.ofNat 8 i) off v s
  | .hka => hkWrite 0 k off v s
  | .hkb => hkWrite 1 k off v s
  | .adac => adacWrite off v s
  | .nco => ncoWrite (Fin.ofNat 4 i) off v s
  | .las => lasWrite off v s
  | .bist => bistWrite off v s
  | .lrx => let s := regStore k p off v s; if off = 0x058 ∧ tb v 5 = false then gradDrop (Fin.ofNat 8 i) s else s
  | .hrx => let s := regStore k p off v s; if off = 0x05C ∧ tb v 5 = false then hrxGradDrop (Fin.ofNat 16 i) s else s
  | .mgt | .clk | .xbar | .trc | .lfm | .htx => regStore k p off v s

/-- A write over a management port in standalone mode is discarded, but for the clears of event status (R372). -/
def standaloneBars (s : State) (port : Port) (a : Nat) : Bool :=
  port != .sheet && tb (s.rd (ra 0x000 0x050)) 0 && !isStatAddr a

/-- A write of a native word through a port: the gateway's answer, a discard, or the register's own effect (R10, R11, R27, R372, R373, R379). -/
def busWrite (port : Port) (addr v : Nat) (s : State) : State :=
  let p := addr / 1024
  let off := addr % 1024 / 4 * 4
  match gateCause s p off with
  | some c => gateAnswer p off c true port s
  | none =>
    if standaloneBars s port (ra p off) then lastErr p off 9 true (port == .spi) s
    else match pageOf p with
    | none => s
    | some (k, i) =>
      if 0x040 ≤ off && !s.flag p pgCtrlEn then ignored p off 17 s
      else
        match rowAt k (liveOff off).1 with
        | none => s
        | some (r, _) =>
          if (liveOff off).2 then twinStore r p off v s
          else asPort port (pageWrite k i p off (v % 2 ^ 32)) s

/-! Commands that are one register's access -/

/-- XY_DATA_ACCESS (R178). -/
def execXyDataAccess (e : Eng) (write : Option Word) (s : State) : Host.Outcome State Fault Refusal :=
  match write with
  | some v => nxt (xyWrite e v.toNat s)
  | none => nxt (xyRead e s).2

end Sys2Proof.Machine
end

