-- ==== Sys2Proof/Machine/Boot.lean ====
section
/-! DEFINITION. Power-on reset, bring-up, the load of the Ream, resets, ModulePwrUp, and the end of DL_ACTIVATE (R221, R222, R303, R316, R317, R372, R380, R432 to R435, R449 to R461). -/

namespace Sys2Proof.Machine

/-! SYS.RST_STAT -/

/-- RST_STAT.CAUSE (R461). -/
def rstCause : Fld := ⟨0x0A4, 0, 3⟩
/-- RST_STAT.RAIL_LATE. -/
def rstLate : Fld := ⟨0x0A4, 3, 1⟩
/-- RST_STAT.RESETS. -/
def rstCount : Fld := ⟨0x0A4, 8, 8⟩
/-- RST_STAT.BOOT_MS. -/
def rstMs : Fld := ⟨0x0A4, 16, 12⟩

/-! What a reset keeps -/

/-- The gateway's ROM image of the CMIS shadow: revision 5.2, the vendor name and the part number as the spec gives them, the rest open (R380; log entry 40). -/
def romByte (a : Nat) : Byte :=
  let text (o : Nat) (l : List Nat) : Byte := BitVec.ofNat 8 (nth 0x20 l (a - o))
  if a = 1 then 0x52
  else if 129 ≤ a ∧ a < 145 then text 129 [0x56, 0x65, 0x78, 0x64, 0x75, 0x74, 0x72, 0x61]
  else if 148 ≤ a ∧ a < 164 then text 148 [0x42, 0x58, 0x33, 0x32, 0x30, 0x38]
  else Config.cmisRom a

/-- The shadow as the ROM image loads it. -/
def romShadow : KMap Byte :=
  ((List.range 3) ++ List.range' 128 128).foldl (fun (m : KMap Byte) a => kput 0 m a (romByte a)) []

/-- Words of registers are kept over a reset. -/
def keepRegs (old : State) (l : List Nat) (s : State) : State := each l (fun a s => s.wr a (old.rd a)) s

/-- The state that every reset begins from: registers at their reset values, nothing powered and every memory lost; flash, fuses, pins and the queue stay, and what R456 keeps where power stays (R449, R455, R456; log entry 38). -/
def bareState (por : Bool) (s : State) : State :=
  let c : State := {}
  let s := blowCut s
  let t : State := { c with
    sec := { c.sec with flash := s.sec.flash, keys := s.sec.keys, progd := s.sec.progd, revoked := s.sec.revoked, rollF := s.sec.rollF, lock := s.sec.lock }
    time := if por then c.time else { c.time with dtc := s.time.dtc, ppsTs := s.time.ppsTs, ppsSeen := s.time.ppsSeen, ppsGood := s.time.ppsGood }
    ist := if por then c.ist else { c.ist with redirected := s.ist.redirected }
    adac := { c.adac with txDis := s.adac.txDis }
    mgmt := { c.mgmt with lpmode := s.mgmt.lpmode, shadow := romShadow }
    boot := { c.boot with env := s.boot.env }
    drawn := s.drawn, pending := s.pending }
  let t := ((fuseShow t).setFlag pwrP ⟨0x058, 2, 1⟩ t.mgmt.lpmode).setFlag lasP lasTxDis t.adac.txDis
  if por then t
  else
    let t := keepRegs s [ra 0x000 0x050, ra memP 0x040, ra bistP 0x148, ra 0x00D 0x060, ra 0x00D 0x06C] t
    t.fset 0x000 rstCount (s.fget 0x000 rstCount + 1)

/-! The NV journal and soft repairs at boot -/

/-- The NV journal at boot: formatted where no slot is valid, a torn last record, and a slot that a compaction left invalid (R442 to R444). -/
def nvBoot (s : State) : State :=
  let s := match nvInForce s with
    | none => nvFormat s
    | some k =>
      let base := nvBase (1 - k)
      let s := if !nvSlotOk s (1 - k) && s.sec.flash.any (fun e => decide (base ≤ e.1 ∧ e.1 < base + 0x10000)) then raise 112 2 s else s
      match (nvRecords s).1.getLast? with
      | some r => if r.committed then s else raise 112 1 s
      | none => s
  let key := match (nvHoldings (nvRecords s).1).filter (fun r => r.typ == 6) with
    | [] => 0
    | r :: l => ((l.foldl (fun (a : NvRec) b => if a.cnt ≤ b.cnt then b else a) r).key + 1) % 4
  nvShow { s with nv := { s.nv with bbKey := key } }

/-- BOOT_LEVEL at power-on: the BIST level record where the journal holds one, else the fuse, QUICK (R221; log entry 39). -/
def levelAtPor (s : State) : Nat :=
  match nvHolding s 2 0 with
  | some r => ofBE (r.payload.take 1) % 2
  | none => 0

/-- The soft repairs that the journal records are applied, but for those that name a spare the fuses use (R317). -/
def repairsAtBoot (s : State) : State :=
  let l := (nvHoldings (nvRecords s).1).filter (fun r => r.typ == 3)
  { s with rep := l.foldl (fun (m : KMap Nat) r => kput 0 m r.key ((ofBE (r.payload.take 1) % 64) &&& (63 ^^^ fuseSpares r.key))) s.rep }

/-! Self-test -/

/-- A unit fails its test: its pages are UNUSABLE, and event 25 gives its class and instance (R222, R227). -/
def unitFail (pages : List Nat) (cls inst : Nat) (s : State) : State := raise 25 (cls * 16 + inst) (each pages markBad s)

/-- A macro is beyond repair (R222, R316). -/
def macroFail (m : Nat) (s : State) : State :=
  let r := regionOf m
  let s := markUnrep m s
  let s := if r = 0 then markBad (0x018 + m / 32) s
    else if r = 2 then s.fset bistP ⟨0x14C, 23 + (m - 152), 1⟩ 1
    else if r = 4 then unitFail [engP ((m - 164) / 2)] 3 ((m - 164) / 2) s
    else s
  raise 25 (5 * 16 + r) s

/-- The patterns of the start-up checker test, as inversions of the 13 bits of a byte, data bits lowest, and what the checker must report of each: 13 single-bit inversions, six double-bit ones, and poison (R310, R316). -/
def checkerPatterns : List (BitVec 13 × Ecc) :=
  (List.range 13).map (fun i => (BitVec.ofNat 13 (2 ^ i), Ecc.ce))
    ++ (List.finRange 6).map (fun i => (BitVec.ofNat 13 (2 ^ (Config.checkPair i).1.val ^^^ 2 ^ (Config.checkPair i).2.val), Ecc.ue))
    ++ [(BitVec.ofNat 13 (0b00011 * 256), Ecc.ue)]

/-- The code of a checker's decision in BootEnv. -/
def Ecc.code : Ecc → Fin 3
  | .ok => 0 | .ce => 1 | .ue => 2

/-- Whether a checker's answers to the patterns are wrong (R316). -/
def checkerWrong (l : List (Fin 3)) : Bool := l != checkerPatterns.map (fun p => p.2.code)

/-- Bring-up steps 3 to 5: the engines, the march at FULL with its repairs, and the checker test (R221, R222, R316, R451). -/
def testMemories (env : BootEnv) (s : State) : State :=
  let s := each ((List.range 5).filter (fun k => env.engFail.getLsbD k)) (fun k s => unitFail [engP k] 3 k s) s
  let full := tb (s.rd (ra bistP 0x148)) 0
  let s := s.fset bistP ⟨0x14C, 31, 1⟩ (bit full)
  let s := onlyIf full (fun s =>
    let one (m : Fin 176) (s : State) : State :=
      let (ok, s) := softRepair m.val s
      if ok then s.fsat bistP ⟨0x150, 16, 8⟩ 1 else macroFail m.val s
    each env.beyond (fun m s => macroFail m.val s) (each env.repaired one s)) s
  onlyIf (tb (s.rd (ra memP 0x040)) 1)
    (each (env.checker.filter (fun x => checkerWrong x.2)) (fun x s => macroFail x.1.val (raise 68 (regionOf x.1.val) s))) s

/-- Bring-up steps 6 and 7: the host lanes, after which no D_HOST domain is on, and the converters, both of which failing latches thermal shutdown (R33, R222, R360, R451). -/
def testUnits (env : BootEnv) (s : State) : State :=
  let s := each ((List.range 16).filter (fun h => env.hostFail.getLsbD h && !s.bad (hrxP h))) (fun h s => unitFail [hrxP h, htxP h] 2 h s) s
  let s := xbarShow { s with pwr := { s.pwr with hostOn := 0 } }
  let s := each ((List.range 2).filter (fun c => env.hkFail.getLsbD c)) (fun c s => unitFail [0x060 + c] 4 c s) s
  let s := (s.setFlag 0x061 hkTwiF (!s.bad 0x061)).setFlag 0x060 hkTwiF (s.bad 0x061 && !s.bad 0x060)
  if env.hkFail = 3 then convertersBad s else s

/-! The Ream -/

/-- A pair of the default register set: a staged register takes it in its twin, any other as a write, but that LB_CTRL.EN waits until the host allows power-up (R432, R452, R454; log entry 41). -/
def regDef (a v : Nat) (s : State) : State :=
  let p := a / 1024
  let off := a % 1024 / 4 * 4
  match pageOf p, gateCause s p off with
  | some (k, i), none =>
    let o := (liveOff off).1
    match rowAt k o with
    | none => s
    | some (r, _) =>
      if r.rws ≠ 0 then s.wr (ra p o + twin) (v &&& r.rws)
      else if (liveOff off).2 then s
      else if k = .las ∧ 0x040 ≤ o ∧ o < 0x060 then
        let n := (o - 0x040) / 4
        let e := setBits s.sec.defEn.toNat n 1 (v % 2)
        pageWrite k i p o (v - v % 2) { s with sec := { s.sec with defEn := BitVec.ofNat 8 e } }
      else pageWrite k i p o (v % 2 ^ 32) s
  | _, _ => s

/-- The image that a slot of the flash holds, or a customer Ream at an offset within it (R426, R428). -/
def flashImage (s : State) (a : Nat) : List Byte :=
  flashBytes s a (max 256 (min (ofBE (flashBytes s (a + 8) 4)) 0x200000))

/-- Checks 1 to 9 on an image in flash; `i` is 0 or 1 for a slot, 2 for the customer Ream (R431). -/
def bootCause (env : BootEnv) (i : Fin 3) (cust : Bool) (base : Nat) (img : List Byte) (s : State) : Option Nat :=
  if env.jedec.isNone || !env.readOk[i] then some 1
  else match reamCause s cust base img with
    | some c => some c
    | none => if env.loadOk[i] then none else some 9

/-- The customer Ream of a base Ream in a slot: loaded over it, or refused with event 96 (R432); with the pairs of its REGDEF. -/
def loadCustomer (env : BootEnv) (slot : Nat) (img : List Byte) (s : State) : List (Nat × Nat) × State :=
  if imgCust img = 0 then ([], s)
  else
    let c := flashImage s (slotBase slot + imgCust img)
    match bootCause env 2 true (imgVersion img) c s with
    | some e => ([], raise 96 (32 + e) (s.fset secP ⟨0x044, 8, 4⟩ e))
    | none =>
      let s := loadSections true c s
      let s := (s.wr (ra secP 0x04C) (imgVersion c)).setFlag secP custIn true
      (imgPairs c, { s with sec := { s.sec with custSha := sha512 (signedPart c) } })

/-- The base Ream of a slot takes force with its customer Ream: sections, page 00h into the shadow, and the REGDEF pairs in order (R380, R432). -/
def loadReam (env : BootEnv) (slot : Nat) (img : List Byte) (s : State) : State :=
  let s := loadSections false img s
  let s := { s with sec := { s.sec with baseSha := sha512 (signedPart img), baseRoll := be img 16 1 } }
  let s := (s.wr (ra secP 0x048) (imgVersion img)).fset secP bootSlot slot
  let (more, s) := loadCustomer env slot img s
  let cmis := ((sections img).filter (fun x => x.typ == 6)).flatMap (fun x => sectionBytes img x)
  let s := each ((cmis.take 128).zip (List.range 128)) (fun x s =>
    { s with mgmt := { s.mgmt with shadow := kput 0 s.mgmt.shadow (128 + x.2) x.1 } }) s
  let s := match nvHolding s 5 0 with
    | some r => each ((r.payload.take 128).zip (List.range 128)) (fun x s => cmisPut (256 * 2 + 128 + x.2) x.1 s) s
    | none => s
  clampAll (each (imgPairs img ++ more) (fun x s => regDef x.1 x.2 s) s)

/-- One slot is tried: true where its Ream has taken force (R432). -/
def trySlot (env : BootEnv) (slot : Nat) (s : State) : Bool × State :=
  let img := flashImage s (slotBase slot)
  match bootCause env (Fin.ofNat 3 slot) false 0 img s with
  | some c => (false, raise 96 (slot * 16 + c) (s.fset secP ⟨0x044, 4 * slot, 4⟩ c))
  | none => (true, loadReam env slot img s)

/-- Bring-up step 8: the preferred slot, then the other, and the BOOT record (R432, R443, R448). -/
def bootReam (env : BootEnv) (s : State) : State :=
  let s := match env.jedec with
    | some j => s.wr (ra nvsP 0x074) j.toNat
    | none => raise 113 1 s
  let (pref, boots, falls) := bootState s
  let (ok, s) := trySlot env pref s
  let (ok2, s) := if ok then (false, s) else trySlot env (1 - pref) s
  let s := if ok2 then s.setFlag secP ⟨0x040, 5, 1⟩ true else s
  let s := if ok || ok2 then s else raise 97 0 (s.fset secP bootSlot 3)
  let b := (boots + 1) % 65536
  let f := (falls + bit ok2) % 65536
  (bootRecord pref b f s).wr (ra secP 0x090) (b + f * 65536)

/-! ModulePwrUp -/

/-- Default maps that name an UNUSABLE host lane are left with EN = 0, with event 3 (R154). -/
def mapsReduced (s : State) : State :=
  each (List.finRange 8) (fun (n : Lane) s =>
    let a := ra 0x008 (0x040 + 4 * n) + twin
    let m := s.rd a
    if (mapHosts m).any (fun (h : Host16) => s.bad (hrxP h) || s.bad (htxP h)) then raise 3 n (s.wr a (setBits m 10 1 0)) else s) s

/-- A press of the device's own, its pages parked first and unparked after; a line lane that its check of demand holds back waits for VCORE (R454). -/
def pwrUpPress (s : State) : State :=
  let pages := 0x008 :: ((List.range 8).map lfmP).filter (fun p => !s.bad p)
  match pages.find? (inPress s) with
  | some b => raise 1 8 (errInfo 0x000 b 0 8 1 s)
  | none =>
    let s := each (pages.filter (fun p => !s.parked p)) becomeParked s
    let s := match pressCheck s pages with
      | some f => pressFailed true pages f s
      | none =>
        let on := (List.finRange 8).filter (fun (n : Lane) => mapEn (mapAfter s pages n) && !s.running n)
        pressStart true pages [] (each on (fun n s => s.setLane n (fun l => { l with wakeCause := activation })) s)
    each pages unparkOp s

/-- ModulePwrUp: the default maps and LFM settings are pressed, and the lasers' EN bits take their defaults (R454). -/
def modulePwrUpOp (s : State) : State :=
  if s.mgmt.allowed || !s.boot.ready || moduleFault s || s.fget pwrP pwrState != 0 then s
  else
    let s := pwrUpPress (mapsReduced (stateChanged { s with mgmt := { s.mgmt with allowed := true } }))
    let en := s.sec.defEn
    each ((List.finRange 8).filter (fun (n : Lane) => en.getLsbD n.val)) (fun n s => lbEnWrite n true s) { s with sec := { s.sec with defEn := 0 } }

/-- MODULE_PWR_UP (R454). -/
def execModulePwrUp (s : State) : Host.Outcome State Fault Refusal := nxt (modulePwrUpOp s)

/-! Bring-up -/

/-- The domains that the external rails feed: VCORE the core, VANA the line lanes, VHS the host groups; VIO none (log entry 42). -/
def railDomains (bad : BitVec 4) : List Nat :=
  (if bad.getLsbD 0 then 1 :: (List.range' 16 8 ++ List.range' 24 5) else []) ++ (if bad.getLsbD 1 then List.range' 2 8 else [])
    ++ (if bad.getLsbD 2 then List.range' 10 4 else [])

/-- Bring-up step 9: management ready, with ModulePwrUp at once in standalone mode, and low power where it is asked for (R327, R372, R451 to R453). -/
def mgmtReady (ms : Nat) (s : State) : State :=
  let s := { s with mgmt := { s.mgmt with released := true }, boot := { s.boot with ready := true } }
  let s := stateChanged (s.fset 0x000 rstMs (min ms 4095))
  let s := if tb (s.rd (ra 0x000 0x050)) 0 then modulePwrUpOp s else s
  lpAsk s

/-- Bring-up from step 2 on: the domains, the self-test, the memories and the Ream (R451). -/
def bringUp (env : BootEnv) (s : State) : State :=
  let bad := env.noGood.map (fun d => d.val) ++ railDomains env.railBad
  let s := { s with boot := { s.boot with waiting := none, env := env } }
  let all := List.range 14 ++ List.range' 16 8 ++ List.range' 24 5
  let s := each all (fun d s => if d ∈ bad then domainFault d s else domainOn d s) s
  if 1 ∈ bad then { s with mgmt := { s.mgmt with released := true } }
  else
    let s := testUnits env (testMemories env (repairsAtBoot (nvBoot s)))
    if s.shut then { s with mgmt := { s.mgmt with released := true } }
    else mgmtReady env.ms (bootReam env s)

/-- Step 2 needs the external rails: with one out of range the bring-up waits (R450). -/
def bootFrom2 (env : BootEnv) (s : State) : State :=
  if env.railBad = 0 then bringUp env s else { s with boot := { s.boot with waiting := some env, env := env } }

/-- POR_ASSERT: nothing is powered, and every output takes its state of R459 (R449, R460). -/
def execPorAssert (s : State) : Host.Outcome State Fault Refusal := nxt (bareState true s)

/-- POR_RELEASE: step 1 and the steps after it (R451). -/
def execPorRelease (env : BootEnv) (s : State) : Host.Outcome State Fault Refusal :=
  if !s.pwr.por then nxt s
  else
    let s := bareState true s
    let s := { s with pwr := { s.pwr with por := false } }
    let s := s.wr (ra 0x000 0x050) (bit env.strap)
    nxt (bootFrom2 env (s.fset bistP ⟨0x148, 0, 1⟩ (levelAtPor s)))

/-- RAIL_IN_RANGE: the bring-up that waits goes on (R450). -/
def execRailInRange (s : State) : Host.Outcome State Fault Refusal :=
  match s.boot.waiting with
  | some env => nxt (bringUp { env with railBad := 0 } s)
  | none => nxt s

/-- RAIL_LATE: 200 ms after release the bring-up goes on without the domains of the rails that are missing (R450). -/
def execRailLate (s : State) : Host.Outcome State Fault Refusal :=
  match s.boot.waiting with
  | some env => nxt (bringUp env (s.setFlag 0x000 rstLate true))
  | none => nxt s

/-- A reset that is not a power-on: no effect while thermal shutdown is latched or power-on reset asserted, else bring-up from step 2 (R358, R455 to R457). -/
def resetFrom (cause : Nat) (env : BootEnv) (s : State) : State :=
  if s.shut || s.pwr.por then s
  else
    let t := bareState false s
    bootFrom2 env ({ t with pwr := { t.pwr with por := false } }.fset 0x000 rstCause cause)

/-- RESET_N: a low of 2 µs or more resets the device at its rising edge (R371, R455). -/
def execResetN (lowNs : Nat) (env : BootEnv) (s : State) : Host.Outcome State Fault Refusal :=
  nxt (if 2000 ≤ lowNs then resetFrom 1 env s else s)

/-- A write of RST_CTRL: one without the key is ignored with cause 17, and DEV_RST with it resets the device (R455, R461). -/
def devRstOp (v : Nat) (env : BootEnv) (s : State) : State :=
  if bits v 16 16 ≠ 0xC0DE then ignored 0x000 0x0A0 17 s
  else if tb v 0 then resetFrom 2 env s
  else s

/-- DEV_RST; in standalone mode the write is discarded (R372, R455, R457, R461). -/
def execDevRst (key : BitVec 16) (env : BootEnv) (s : State) : Host.Outcome State Fault Refusal :=
  nxt (if s.shut then gateAnswer 0x000 0x0A0 7 true .twoWire s
  else if tb (s.rd (ra 0x000 0x050)) 0 then lastErr 0x000 0x0A0 9 true false s
  else devRstOp (key.toNat * 65536 + 1) env s)

/-- CMIS_SOFTWARE_RESET: the CMIS SoftwareReset control, which the front-end of a device in shutdown or without D_CORE does not take (R380, R455). -/
def execCmisSoftwareReset (env : BootEnv) (s : State) : Host.Outcome State Fault Refusal :=
  nxt (if s.boot.ready && s.pwr.coreOn then resetFrom 3 env s else s)

/-! Activation of a downloaded Ream -/

/-- DL_ACTIVATE_DONE: steps 2 to 5 of R435: sheets, X and Y, tables and the pairs of page SEQ; dispatch resumes. -/
def execDlActivateDone (s : State) : Host.Outcome State Fault Refusal :=
  nxt (if s.sec.actRun then
    let img := dlImage s
    let s := drainAbort (dlMet { s with sec := { s.sec with actRun := false } })
    let s := each (sections img) (fun x s =>
      let b := sectionBytes img x
      match x.typ with
      | 1 => loadSheets false b x.dest s
      | 2 => loadXy b s
      | 3 => loadTablesLive b x.dest s
      | _ => s) s
    let s := clampAll s
    let s := each ((imgPairs img).filter (fun x => x.1 / 1024 == seqP)) (fun x s => regDef x.1 x.2 s) s
    let s := onlyIf (s.seq.drain == 2) drainEnd s
    let s := (((s.fset secP bootSlot 2).setFlag secP custIn false).wr (ra secP 0x048) (imgVersion img)).wr (ra secP 0x04C) 0
    let s := { s with sec := { s.sec with baseSha := sha512 (signedPart img), baseRoll := be img 16 1, custSha := [] } }
    let s := raise 98 7 (secEnd 1 0 s)
    if s.sec.attWait then attestBegin (secStart 1 s) else s
  else s)

end Sys2Proof.Machine
end

