-- ==== Sys2Proof/Machine/Bus.lean ====
section
/-! DEFINITION. A native write through a port, with SYS.RST_CTRL, whose write resets the device (R10, R455, R461). -/

namespace Sys2Proof.Machine

/-- The native address of SYS.RST_CTRL (R461). -/
def rstCtrl : Nat := ra 0x000 0x0A0

/-- A write of a native word through a port (R10, R27, R363, R370). -/
def nativeWrite (port : Port) (addr v : Nat) (s : State) : State :=
  let t := busWrite port addr v s
  if addr / 4 * 4 = rstCtrl ∧ gateCause s 0x000 0x0A0 = none ∧ standaloneBars s port rstCtrl = false ∧ s.flag 0x000 pgCtrlEn = true then
    asPort port (devRstOp v s.boot.env) t
  else t

/-- REGISTER_WRITE (R10). -/
def execRegisterWrite (port : Port) (addr : BitVec 22) (value : Word) (s : State) : Host.Outcome State Fault Refusal :=
  nxt (nativeWrite port addr.toNat value.toNat s)

end Sys2Proof.Machine
end

