-- ==== Sys2Proof/Machine/Engine.lean ====
section
/-! DEFINITION. The steps of an engine: fetch, sources, results, post-modifies, register access, waits, signals and the end of a run; the watchdog; and the reload of a sheet (R176 to R199, R313). -/

namespace Sys2Proof.Machine

/-! Posted writes -/

/-- The oldest posted write of an engine is accepted by its page (R193). -/
def acceptFront (e : Eng) (s : State) : State :=
  match s.eng[e].wq with
  | [] => s
  | (a, v) :: r => nativeWrite .sheet a v.toNat (s.setEng e (fun g => { g with wq := r }))

/-- Every posted write of an engine is accepted, the oldest first; the queue holds at most 8 (R193). -/
def acceptAll (e : Eng) (s : State) : State := each (List.range 8) (fun _ s => acceptFront e s) s

/-! Fetch -/

/-- Whether an engine executes steps now. -/
def engRuns (s : State) (e : Eng) : Bool := s.eng[e].phase == .running

/-- The step word at an engine's PC. -/
def stepAt (s : State) (e : Eng) : StepWord :=
  let pc := s.eng[e].pc % 32768
  stepFields (ofLE (s.fetchN ((160 + pc / 8192) * 65536 + 8 * (pc % 8192)) 8))

/-- The sheet's range in its directory entry holds the PC (R196). -/
def inRange (s : State) (e : Eng) : Bool :=
  let d := s.dirOf s.eng[e].sheet
  decide (bits d 0 15 ≤ s.eng[e].pc ∧ s.eng[e].pc ≤ bits d 15 15)

/-- The fetch of a step: the watchdog, the range, and the word; none where the run does not go on to execute it (R196, R197, R199, R305). -/
def fetchStep (e : Eng) (s : State) : Option StepWord × State :=
  let g := s.eng[e]
  if 65536 ≤ g.steps then (none, abortRun e 15 g.pc s)
  else if !inRange s e then (none, abortRun e 3 g.pc s)
  else
    let (_, ue, s) := readWord .owner (160 + g.pc / 8192) (g.pc % 8192) s
    if !ue then (some (stepAt s e), s)
    else if engRuns s e then (none, abortRun e 5 g.pc s)
    else (none, s)

/-! Sources -/

/-- The pointer of an address generator. -/
def agPtr (s : State) (e : Eng) (i : Nat) : Nat := (s.eng[e].ag[(Fin.ofNat 8 i)]).ptr.toNat

/-- What a source of a step reads: its value, whether narrowing set V and S, whether a memory word was uncorrectable, and the state (R184, R187 to R190). -/
structure SrcVal where
  val : Int
  v : Bool
  sat : Bool
  ue : Bool
  st : State

/-- A word of X or Y read as a source (R190). -/
def readXy (e : Eng) (y : Bool) (w : Nat) (s : State) : SrcVal :=
  let (bs, ue, s) := readWord .owner (164 + 2 * e.val + bit y) w s
  { val := sx 24 (ofLE bs), v := false, sat := false, ue := ue, st := s }

/-- The bits by which a step narrows an accumulator that it reads: SH, or 0 in ST and SIG, whose AUX has no SH (R185, R188). DEDUCED, log entry 83. -/
def narrowBy (o : Op) (f : StepWord) : Nat := if o = .st ∨ o = .sig then 0 else f.sh

/-- The value of one source (R184, R187, R188). -/
def readSrc (e : Eng) (o : Op) (f : StepWord) (x : Src) (s : State) : SrcVal :=
  let g := s.eng[e]
  let plain (v : Int) : SrcVal := { val := v, v := false, sat := false, ue := false, st := s }
  match x with
  | .xd => readXy e false (agPtr s e f.xGen) s
  | .yd => readXy e true (agPtr s e f.yGen) s
  | .imm => plain (if zeroExt o then (f.imm : Int) else sx 16 f.imm)
  | .immh => plain (sx 24 (f.imm * 256))
  | .zero => plain 0
  | .xptr => plain (agPtr s e f.xGen : Int)
  | .t i => plain (g.t[(Fin.ofNat 8 i)]).toInt
  | .acc i =>
    let r := fit 24 f.sat (narrowRaw (narrowBy o f) (if i = 0 then g.acc0 else g.acc1).toInt)
    { val := r.1, v := r.2.1, sat := r.2.2, ue := false, st := s }

/-- A source that a step may not use: read where it is among the step's sources, else 0 and no effect (R190). -/
def readIf (e : Eng) (o : Op) (f : StepWord) (l : List Src) (x : Src) (s : State) : SrcVal :=
  if x ∈ l then readSrc e o f x s else { val := 0, v := false, sat := false, ue := false, st := s }

/-! Destinations -/

/-- The state with a field of an address generator changed. -/
def setAg (e : Eng) (i : Nat) (f : AddrGen → AddrGen) (s : State) : State :=
  s.setEng e (fun g => { g with ag := g.ag.set (Fin.ofNat 8 i) (f (g.ag[(Fin.ofNat 8 i)])) })

/-- The state with a working register changed. -/
def setT (e : Eng) (i : Nat) (v : Int) (s : State) : State :=
  s.setEng e (fun g => { g with t := g.t.set (Fin.ofNat 8 i) (BitVec.ofInt 24 v) })

/-- The flags of an engine. -/
def setFlg (e : Eng) (f : BitVec 5 → BitVec 5) (s : State) : State := s.setEng e (fun g => { g with flg := f g.flg })

/-- A value for a word held to 24 bits: V, S, Z and N are set from it (R186, R189). -/
def word24 (e : Eng) (f : StepWord) (v : Int) (s : State) : Int × State :=
  let r := fit 24 f.sat v
  (r.1, setFlg e (fun g => setVS (setZN g r.1) r.2.1 r.2.2) s)

/-- The write of a result to its destination, with Z, N, V and S (R183, R186, R189, R190; log entry 5). -/
def writeDst (e : Eng) (f : StepWord) (d : Dst) (v : Int) (s : State) : State :=
  let low : BitVec 13 := BitVec.ofInt 13 v
  let agf (x : Int) (i : Nat) (u : AddrGen → AddrGen) (s : State) : State := setAg e i u (setFlg e (fun g => setZN g x) s)
  match d with
  | .acc i =>
    let r := fit 56 f.sat v
    let a := BitVec.ofInt 56 r.1
    setFlg e (fun g => setVS (setZN g r.1) r.2.1 r.2.2) (s.setEng e (fun g => if i = 0 then { g with acc0 := a } else { g with acc1 := a }))
  | .xmem => let (x, t) := word24 e f v s; engMemWrite e false (agPtr s e f.xGen) (enc2 24 x) t
  | .ymem => let (x, t) := word24 e f v s; engMemWrite e true (agPtr s e f.yGen) (enc2 24 x) t
  | .t i => let (x, t) := word24 e f v s; setT e i x t
  | .ptr i => agf low.toNat i (fun a => { a with ptr := low }) s
  | .md i => agf low.toInt i (fun a => { a with md := low }) s
  | .base i => agf low.toNat i (fun a => { a with base := low }) s
  | .len i => agf low.toNat i (fun a => { a with len := low }) s
  | .flg => setFlg e (fun _ => BitVec.ofInt 5 v) s
  | .none => (word24 e f v s).2

/-! The end of a step -/

/-- The post-modify of one generator; one that the step wrote keeps the written value (R181, R190, R191). -/
def postMod (e : Eng) (i code : Nat) (d : Option Dst) (s : State) : State :=
  if d = some (.ptr i) then s else setAg e i (fun a => { a with ptr := agMove a.ptr a.base a.len (postDelta code a.md) }) s

/-- Both post-modifies, the PC's advance and the count of the step (R176, R190, R197). -/
def endStep (e : Eng) (f : StepWord) (d : Option Dst) (s : State) : State :=
  let s := postMod e f.yGen (f.yag % 4) d (postMod e f.xGen (f.xag % 4) d s)
  addCtr (cEng e 1) 1 (s.setEng e (fun g => { g with pc := (g.pc + 1) % 32768, steps := g.steps + 1 }))

/-- A step command: the step at the PC is fetched and executed where it has this opcode; with a reserved opcode the run faults with cause 1, and a step of another opcode waits for its own command (R186, R197; log entry 48). -/
def stepWith (e : Eng) (o : Op) (f : StepWord → State → State) (s : State) : State :=
  if !engRuns s e then s
  else
    let s := if o = .st then s else acceptAll e s
    if !engRuns s e then s
    else
      match fetchStep e s with
      | (none, t) => t
      | (some w, t) =>
        match opOf w.op with
        | none => abortRun e 1 s.eng[e].pc t
        | some x => if x = o then f w t else s

/-- The destination of a computing step or an LD; outside its opcode's classes the run faults with cause 2 (R183, R186, R197). -/
def withDst (e : Eng) (o : Op) (w : StepWord) (f : Dst → State → State) (s : State) : State :=
  match dstOf w.dst with
  | some d => if opTakes o d then f d s else abortRun e 2 s.eng[e].pc s
  | none => abortRun e 2 s.eng[e].pc s

/-! Computing steps -/

/-- The accumulator that a destination names, as its value. -/
def accOf (g : EngSt) : Dst → Int
  | .acc 0 => g.acc0.toInt
  | .acc _ => g.acc1.toInt
  | _ => 0

/-- A computing step: the sources, the result, the destination with the flags of the opcode's row, and the post-modifies (R186 to R191). -/
def compute (e : Eng) (o : Op) (w : StepWord) (s : State) : State :=
  withDst e o w (fun d s =>
    let pc := s.eng[e].pc
    let l := sourcesOf o d w
    let a := readIf e o w l (srcOf w.srcA) s
    let b := readIf e o w l (srcOf w.srcB) a.st
    if a.ue || b.ue then abortRun e 6 pc b.st
    else
      let s := setFlg e (fun g => setVS g (a.v || b.v) (a.sat || b.sat)) b.st
      let s := match o, d with
        | .minx, .t i | .maxx, .t i =>
          let td := (s.eng[e].t[(Fin.ofNat 8 i)]).toInt
          let rep := replaces o w a.val td
          let s := if rep then setT e (i + 1) b.val (setT e i a.val s) else s
          setFlg e (fun g => setC (setZN g (if rep then a.val else td)) rep) s
        | _, _ =>
          let r := alu o d.isAcc w a.val b.val (accOf s.eng[e] d)
          let s := writeDst e w d r.val s
          setFlg e (fun g => setCarry g r.carry) s
      endStep e w (some d) s) s

/-- MPY (R186). -/
def execStepMpy (e : Eng) (s : State) : Host.Outcome State Fault Refusal := nxt (stepWith e .mpy (compute e .mpy) s)
/-- MAC (R186). -/
def execStepMac (e : Eng) (s : State) : Host.Outcome State Fault Refusal := nxt (stepWith e .mac (compute e .mac) s)
/-- MSU (R186). -/
def execStepMsu (e : Eng) (s : State) : Host.Outcome State Fault Refusal := nxt (stepWith e .msu (compute e .msu) s)
/-- ADD (R186). -/
def execStepAdd (e : Eng) (s : State) : Host.Outcome State Fault Refusal := nxt (stepWith e .add (compute e .add) s)
/-- SUB (R186). -/
def execStepSub (e : Eng) (s : State) : Host.Outcome State Fault Refusal := nxt (stepWith e .sub (compute e .sub) s)
/-- MIN (R186). -/
def execStepMin (e : Eng) (s : State) : Host.Outcome State Fault Refusal := nxt (stepWith e .min (compute e .min) s)
/-- MAX (R186). -/
def execStepMax (e : Eng) (s : State) : Host.Outcome State Fault Refusal := nxt (stepWith e .max (compute e .max) s)
/-- MINX (R186). -/
def execStepMinx (e : Eng) (s : State) : Host.Outcome State Fault Refusal := nxt (stepWith e .minx (compute e .minx) s)
/-- MAXX (R186). -/
def execStepMaxx (e : Eng) (s : State) : Host.Outcome State Fault Refusal := nxt (stepWith e .maxx (compute e .maxx) s)
/-- SHL (R186). -/
def execStepShl (e : Eng) (s : State) : Host.Outcome State Fault Refusal := nxt (stepWith e .shl (compute e .shl) s)
/-- SHR (R186). -/
def execStepShr (e : Eng) (s : State) : Host.Outcome State Fault Refusal := nxt (stepWith e .shr (compute e .shr) s)
/-- AND (R186). -/
def execStepAnd (e : Eng) (s : State) : Host.Outcome State Fault Refusal := nxt (stepWith e .and (compute e .and) s)
/-- OR (R186). -/
def execStepOr (e : Eng) (s : State) : Host.Outcome State Fault Refusal := nxt (stepWith e .or (compute e .or) s)
/-- XOR (R186). -/
def execStepXor (e : Eng) (s : State) : Host.Outcome State Fault Refusal := nxt (stepWith e .xor (compute e .xor) s)
/-- MOV; with DST = FLG the value replaces every flag (R186). -/
def execStepMov (e : Eng) (s : State) : Host.Outcome State Fault Refusal := nxt (stepWith e .mov (compute e .mov) s)

/-! Register access -/

/-- The native address of an LD or ST (R192). -/
def sheetAddr (g : EngSt) (w : StepWord) : Nat :=
  let page := (w.page + (if w.useInst then g.inst else 0)) % 4096
  let off := (w.imm % 1024 + (if w.idx then 4 * ((g.t[(6 : Fin 8)]).toNat % 256) else 0)) % 1024
  page * 1024 + off / 4 * 4

/-- LD: its read is issued once every earlier ST is accepted, and the step waits for its data (R192, R193). -/
def execStepLd (e : Eng) (s : State) : Host.Outcome State Fault Refusal :=
  nxt (stepWith e .ld (fun w s => withDst e .ld w (fun _ s =>
    let (v, s) := busRead .sheet (sheetAddr s.eng[e] w) s
    s.setEng e (fun g => if g.phase == .running then { g with phase := .loading (BitVec.ofNat 32 v) } else g)) s) s)

/-- LD_DATA_RETURN: the shifted data reach the destination, and the step completes (R192, R193). -/
def execLdDataReturn (e : Eng) (s : State) : Host.Outcome State Fault Refusal :=
  nxt (match s.eng[e].phase with
  | .loading v =>
    let w := stepAt s e
    match dstOf w.dst with
    | some d => endStep e w (some d) (writeDst e w d (sx 24 (bits v.toNat (8 * w.bsh) 24)) (s.setEng e (fun g => { g with phase := .running })))
    | none => s
  | _ => s)

/-- An ST with its source read: the write enters the queue, or the step waits for an entry (R192, R193). -/
def stPost (e : Eng) (w : StepWord) (s : State) : State :=
  let pc := s.eng[e].pc
  if w.dst / 16 ≠ 0 then abortRun e 2 pc s
  else
    let a := readSrc e .st w (srcOf (w.dst % 16)) s
    if a.ue then abortRun e 6 pc a.st
    else if 8 ≤ a.st.eng[e].wq.length then a.st.setEng e (fun g => { g with phase := .stFull })
    else
      let s := setFlg e (fun g => setVS g a.v a.sat) a.st
      let v : Word := BitVec.ofNat 32 (enc2 24 a.val * 2 ^ (8 * w.bsh))
      let x := sheetAddr s.eng[e] w
      endStep e w none (s.setEng e (fun g => { g with wq := g.wq ++ [(x, v)] }))

/-- ST (R192, R193). -/
def execStepSt (e : Eng) (s : State) : Host.Outcome State Fault Refusal := nxt (stepWith e .st (stPost e) s)

/-- ST_QUEUE_FREE: the oldest posted write is accepted, and the ST that waited enters the queue (R193). -/
def execStQueueFree (e : Eng) (s : State) : Host.Outcome State Fault Refusal :=
  nxt (if s.eng[e].phase == .stFull then
    let s := if 8 ≤ s.eng[e].wq.length then acceptFront e s else s
    if s.eng[e].phase == .stFull then stPost e (stepAt s e) (s.setEng e (fun g => { g with phase := .running })) else s
  else s)

/-! Control -/

/-- A branch taken to IMM[14:0], with its STEP packet (R186, R420). -/
def branchTo (e : Eng) (w : StepWord) (s : State) : State :=
  trcStep e 1 ((endStep e w none s).setEng e (fun g => { g with pc := w.imm % 32768 }))

/-- BR (R186). -/
def execStepBr (e : Eng) (s : State) : Host.Outcome State Fault Refusal := nxt (stepWith e .br (branchTo e) s)

/-- BRC (R182, R186). -/
def execStepBrc (e : Eng) (s : State) : Host.Outcome State Fault Refusal :=
  nxt (stepWith e .brc (fun w s => if condHolds w.cond s.eng[e].flg then branchTo e w s else endStep e w none s) s)

/-- Whether SIG names a wait source (R194). -/
def waitKnown (x : Nat) : Bool := decide (x ≤ 0x05) || x == 0x08 || x == 0x10 || decide (0x20 ≤ x ∧ x < 0x40)

/-- Whether a level source is true: READY of a sequence entry (R194). -/
def waitLevel (s : State) (x : Nat) : Bool :=
  if 0x20 ≤ x ∧ x < 0x30 then s.hk[(0 : Fin 2)].res[(Fin.ofNat 17 (x - 0x20))].fresh
  else if 0x30 ≤ x ∧ x < 0x40 then s.hk[(1 : Fin 2)].res[(Fin.ofNat 17 (x - 0x30))].fresh
  else false

/-- WAIT: it ends at once for a true level source, with IMM = 0, or in a drain, and else holds the engine (R194, R204). -/
def execStepWait (e : Eng) (s : State) : Host.Outcome State Fault Refusal :=
  nxt (stepWith e .wait (fun w s =>
    if !waitKnown w.sig then abortRun e 4 s.eng[e].pc s
    else
      let hit := waitLevel s w.sig
      let above := s.seq.drain != 0 || w.imm == 0
      let s := endStep e w none s
      if hit && s.seq.drain == 0 then waitEnd e false s
      else if above then waitEnd e true s
      else s.setEng e (fun g => { g with phase := .waiting w.sig })) s)

/-- WAIT_SOURCE: the awaited source has occurred; a strobe group ends its waits itself, and a level source must be true (R194, R229). -/
def execWaitSource (e : Eng) (s : State) : Host.Outcome State Fault Refusal :=
  nxt (match s.eng[e].phase with
  | .waiting x => if x = 0x10 ∨ (2 ≤ x ∧ x ≤ 5) ∨ (0x20 ≤ x ∧ waitLevel s x = false) then s else waitEnd e false s
  | _ => s)

/-- WAIT_TIMEOUT (R194). -/
def execWaitTimeout (e : Eng) (s : State) : Host.Outcome State Fault Refusal := nxt (if waits s e then waitEnd e true s else s)

/-- SIG: a strobe, a software trigger or an event; the first events of a restarted run are not logged again (R195, R199). -/
def execStepSig (e : Eng) (s : State) : Host.Outcome State Fault Refusal :=
  nxt (stepWith e .sig (fun w s =>
    if w.sig < 4 then endStep e w none (strobeGroup w.sig s)
    else if 0x40 ≤ w.sig ∧ w.sig < 0x80 then endStep e w none (fire 7 (w.sig - 0x40) s)
    else if 0x80 ≤ w.sig ∧ w.sig < 0x88 then
      let a := readSrc e .sig w (srcOf w.srcA) s
      if a.ue then abortRun e 6 s.eng[e].pc a.st
      else
        let s := setFlg e (fun g => setVS g a.v a.sat) a.st
        let again := decide (s.eng[e].sigs < s.eng[e].skip)
        let s := s.setEng e (fun g => { g with sigs := g.sigs + 1 })
        endStep e w none (if again then s else raiseAfter (152 + (w.sig - 0x80)) (enc2 7 a.val) (reloadCause3 s) s)
    else abortRun e 4 s.eng[e].pc s) s)

/-- END: the run ends with its END step in PC, and FAIL_CNT clears (R186, R201, R207). -/
def execStepEnd (e : Eng) (s : State) : Host.Outcome State Fault Refusal :=
  nxt (stepWith e .end_ (fun w s =>
    let pc := s.eng[e].pc
    let b := s.eng[e].bind
    let s := (endStep e w none s).setEng e (fun g => { g with pc := pc, phase := .idle })
    trcStep e 2 (s.fset seqP (bindFail b) 0)) s)

/-- ENG_WDOG: a run that has executed 65,536 steps is aborted before one more (R197). -/
def execEngWdog (e : Eng) (s : State) : Host.Outcome State Fault Refusal :=
  nxt (if s.eng[e].phase != .idle && decide (65536 ≤ s.eng[e].steps) then abortRun e 15 s.eng[e].pc s else s)

/-! Reload of a sheet -/

/-- The steps of a sheet in an image: the address of each with its bytes in memory order (R196, R429). -/
def sheetSteps (img : List Byte) (lo hi : Nat) : List (Nat × List Byte) :=
  ((sections img).filter (fun x => x.typ == 1)).flatMap (fun x =>
    let steps := chunk 8 x.size ((sectionBytes img x).drop 1024)
    ((steps.zip (List.range steps.length)).map (fun p => (x.dest + p.2, p.1.reverse))).filter (fun p => decide (lo ≤ p.1 ∧ p.1 ≤ hi)))

/-- The image that a sheet is reloaded from, where the Ream in force lies in a flash slot and reads as it was verified at boot (R313). -/
def reloadImage (s : State) (sheet : Nat) : Option (List Byte) :=
  let slot := s.fget secP bootSlot
  if 2 ≤ slot then none
  else
    let img := flashImage s (slotBase slot)
    if sha512 (signedPart img) ≠ s.sec.baseSha then none
    else
      let img2 := if 192 ≤ sheet ∧ s.flag secP custIn = true then flashImage s (slotBase slot + imgCust img) else img
      if (192 ≤ sheet ∧ s.flag secP custIn = true ∧ sha512 (signedPart img2) ≠ s.sec.custSha)
        ∨ ((sections img2).filter (fun x => x.typ == 1)).any (fun x => sha512 (sectionBytes img2 x) != x.sha) then none
      else some img2

/-- SHEET_RELOAD_DONE: the sheet is rewritten and its suspended runs are queued again at the head of their priorities, or its entry is made not VALID, its runs are aborted with cause 5 and its requests discarded with cause 9; it waits while VAUX allows no flash command (R199, R313, R460). -/
def execSheetReloadDone (sheet : Byte) (flashOk : Bool) (s : State) : Host.Outcome State Fault Refusal :=
  let sh := sheet.toNat
  match s.seq.reload.find? (fun x => x.1 == sh) with
  | none => nxt s
  | some (_, runs) =>
    if s.nv.hold then nxt s
    else
    let s := { s with seq := { s.seq with reload := s.seq.reload.filter (fun x => x.1 != sh) } }
    let s := reloadShow ((s.fset memP reloadSheetF sh).fset memP reloadRegion 3)
    let d := s.dirOf sh
    match if flashOk then reloadImage s sh else none with
    | some img =>
      let s := each (sheetSteps img (bits d 0 15) (bits d 15 15)) (fun p s => memWrite (160 * 65536 + 8 * p.1) p.2 s) (s.setFlag memP reloadFail false)
      let s := { s with seq := { s.seq with queue := runs ++ s.seq.queue } }
      nxt (raiseAfter 66 3 (reloadCause 3 s) s)
    | none =>
      let s := { s with seq := { s.seq with dir := kput 0 s.seq.dir sh (BitVec.ofNat 32 (setBits d 31 1 0)) } }
      let held := s.seq.queue.filter (fun r => r.sheet == sh)
      let s := { s with seq := { s.seq with queue := s.seq.queue.filter (fun r => r.sheet != sh) } }
      let s := raiseAfter 66 11 (reloadCause 3 s) (s.setFlag memP reloadFail true)
      let s := each runs (fun r s =>
        let k : Eng := Fin.ofNat 5 r.eng
        raiseAfter 145 (k.val + 8 * 5) (reloadCause3 s) (bindFault r.bind (addCtr (cEng k 2) 1 (faultInfo k 5 r.sheet r.step s)))) s
      nxt (each held (fun _ s => refuseSheet sh s) s)

end Sys2Proof.Machine
end

