-- ==== Sys2Proof/Machine/Mgmt.lean ====
section
/-! DEFINITION. The management ports: two-wire transactions and CCCs, CMIS bytes and their effects, Apply, SPI, MODSEL_N, INT_N, and requests from the far end (R145, R284, R357, R362 to R373, R380, R388). -/

namespace Sys2Proof.Machine

/-! INT_N -/

/-- INT_N is asserted: an unmasked event status bit, an unmasked CMIS flag, or thermal shutdown, once the ports are released (R357, R371, R388, R453). -/
def intAsserted (s : State) : Bool := s.mgmt.released && (eventInt s || cmisInt s || s.shut)

/-! The front-end -/

/-- The ENG4 front-end answers: D_CORE is on, has started, and thermal shutdown does not hold it (R380). -/
def frontUp (s : State) : Bool := s.pwr.coreOn && s.boot.ready && !s.pwr.coreHeld && !s.shut

/-- The current bank and page: bytes 126 and 127 as they stand (R367; log entry 44). -/
def cmisBank (s : State) : Nat := (cmisByte s 126).toNat
/-- The current page. -/
def cmisPage (s : State) : Nat := (cmisByte s 127).toNat

/-- Whether byte o lies in a vendor window (R366, R367). -/
def inWindow (s : State) (o : Nat) : Bool := decide (128 ≤ o) && decide (0x80 ≤ cmisPage s ∧ cmisPage s < 0x90)

/-- The native byte of a vendor window (R367). -/
def windowByte (s : State) (o : Nat) : Nat := (cmisBank s * 16 + (cmisPage s - 0x80)) * 128 + (o - 128)

/-- The offset after o: lower memory and the upper page roll over apart (log entry 44). -/
def nextOff (o : Nat) : Nat := if o = 127 then 0 else if 255 ≤ o then 128 else o + 1

/-! CMIS bytes -/

/-- A byte of the gateway's shadow, with the module state and INT_N's inverse in byte 3 (R368, R380). -/
def shadowByte (s : State) (o : Nat) : Byte :=
  if o = 3 then BitVec.ofNat 8 (moduleState s * 2 + bit (!intAsserted s)) else kget (0 : Byte) s.mgmt.shadow o

/-- A byte of the CMIS map that the shadow holds (R380). -/
def inShadow (s : State) (o : Nat) : Bool := decide (o < 4) || (decide (128 ≤ o) && cmisPage s == 0)

/-- A byte that the front-end answers for a key, with what its read clears: latched flags (R366). -/
def cmisKeyRead (bank key : Nat) (s : State) : Byte × State :=
  let o := key - page11 bank 0
  if 8 ≤ key ∧ key < 14 then (cmisByte s key, cmisPut key 0 s)
  else if key = 14 then (BitVec.ofNat 8 (cmisTemp s / 256), s)
  else if key = 15 then (BitVec.ofNat 8 (cmisTemp s), s)
  else if key = 26 then (BitVec.ofNat 8 (setBits (cmisByte s 26).toNat 4 1 (s.fget pwrP lpReqF)), s)
  else if page11 bank 128 ≤ key ∧ key < page11 bank 132 then
    let h (i : Nat) : Host16 := Fin.ofNat 16 (8 * bank + 2 * (o - 128) + i)
    (BitVec.ofNat 8 (dpState s (h 0) + 16 * dpState s (h 1)), s)
  else if page11 bank 134 ≤ key ∧ key < page11 bank 154 then (BitVec.ofNat 8 (flagByte s bank o), cmisPut key 0 s)
  else (cmisByte s key, s)

/-- A read of a CMIS byte outside the vendor windows (R366, R380). -/
def cmisRead (o : Nat) (s : State) : Byte × State :=
  if o = 126 ∨ o = 127 then (cmisByte s o, s)
  else if inShadow s o then (shadowByte s o, s)
  else if !frontUp s then (0, s)
  else match cmisKey (cmisBank s) (cmisPage s) o with
    | some k => cmisKeyRead (cmisBank s) k s
    | none => (0, s)

/-- Whether the host may write a CMIS byte, by its key: the controls, masks and entries of lower memory, pages 10h and 13h, and the selector of page 14h (log entry 43). -/
def cmisWritable (key : Nat) : Bool :=
  if key < 128 then decide ((26 ≤ key ∧ key < 37) ∨ 118 ≤ key)
  else
    let p := key / 256 % 256
    p == 0x10 || p == 0x13 || (p == 0x14 && key % 256 == 128)

/-- A write of byte 26: LowPwrAllowRequestHW, LowPwrRequestSW, which writes LP_REQ, and SoftwareReset; where neither request holds, the host allows power-up (R371, R454, R455; log entry 43). -/
def byte26 (b : Byte) (s : State) : State :=
  if b.getLsbD 3 then resetFrom 3 s.boot.env s
  else
    let s := cmisPut 26 (b &&& 0xEF) s
    let s := lpReqOp (b.getLsbD 4) s
    if lpPin s then lpEnter 1 s
    else if b.getLsbD 4 then s
    else
      let s := wakeSource 1 0 s
      modulePwrUpOp s

/-- A CMIS control byte takes effect: byte 26, and the Tx disables, which set SW_DIS (R237, R371; log entry 43). -/
def cmisEffect (key : Nat) (b : Byte) (s : State) : State :=
  if key = 26 then byte26 b s
  else
    let s := cmisPut key b s
    if key = page10 0 130 then each (List.finRange 8) (fun n s => swDisWrite n (b.getLsbD n.val) s) s else s

/-- A write of a CMIS byte outside the vendor windows (R366, R372, R380). -/
def cmisWrite (o : Nat) (b : Byte) (s : State) : State :=
  if o = 126 ∨ o = 127 then cmisPut o b s
  else if s.shut then lastErr 0xFFF o 7 true false s
  else if !frontUp s then lastErr 0xFFF o 1 true false s
  else if tb (s.rd (ra 0x000 0x050)) 0 then lastErr 0xFFF o 9 true false s
  else match cmisKey (cmisBank s) (cmisPage s) o with
    | none => lastErr 0xFFF o 6 true false s
    | some k => if cmisWritable k then cmisEffect k b s else s

/-! Bytes of a transaction -/

/-- Where an access lies, as LAST_ERR names it: native page and offset, or 0xFFF and the CMIS byte (R382). -/
def whereIs (s : State) (o : Nat) : Nat × Nat :=
  if inWindow s o then (windowByte s o / 1024, windowByte s o % 1024) else (0xFFF, o)

/-- The word that held bytes make: a byte that the transaction did not send is open (R363; log entry 44). -/
def heldWord (held : List (Nat × Byte)) (s : State) : Nat × State :=
  (List.range 4).foldl (fun x i =>
    match held.find? (fun e => e.1 % 4 == i) with
    | some e => (x.1 + e.2.toNat * 256 ^ i, x.2)
    | none => let (d, t) := x.2.draw 8; (x.1 + d * 256 ^ i, t)) (0, s)

/-- The data bytes of a write, from the current offset on; a native word is written when its highest byte arrives, and one left incomplete is discarded with cause 8 (R363, R367). -/
def writeBytes : List Byte → List (Nat × Byte) → State → State
  | [], held, s =>
    match held with
    | [] => s
    | e :: _ => lastErr (e.1 / 1024) (e.1 % 1024 / 4 * 4) 8 true false s
  | b :: r, held, s =>
    let o := s.mgmt.ptr
    let s := { s with mgmt := { s.mgmt with ptr := nextOff o } }
    if inWindow s o then
      let a := windowByte s o
      let held := held ++ [(a, b)]
      if a % 4 = 3 then
        let (v, s) := heldWord held s
        let t := nativeWrite .twoWire (a / 4 * 4) v s
        if a / 4 * 4 = rstCtrl then t else writeBytes r [] t
      else writeBytes r held s
    else
      let t := cmisWrite o b s
      if o = 26 ∧ b.getLsbD 3 = true then t else writeBytes r held t

/-- The data bytes of a read, from the current offset on, each native word taken whole at its first byte; `ready` counts the words that are ready in time, where the port can end the read (R363, R364). -/
def readBytes : Nat → List (Nat × Nat) → Option Nat → State → List Byte × State
  | 0, _, _, s => ([], s)
  | k + 1, snaps, ready, s =>
    let o := s.mgmt.ptr
    let go (b : Byte) (snaps : List (Nat × Nat)) (ready : Option Nat) (s : State) : List Byte × State :=
      let x := readBytes k snaps ready { s with mgmt := { s.mgmt with ptr := nextOff o } }
      (b :: x.1, x.2)
    if inWindow s o then
      let a := windowByte s o
      let part (v : Nat) : Byte := BitVec.ofNat 8 (v / 256 ^ (a % 4))
      match snaps.find? (fun e => e.1 == a / 4) with
      | some e => go (part e.2) snaps ready s
      | none =>
        if ready = some 0 then ([], s)
        else
          let (v, s) := busRead .twoWire (a / 4 * 4) s
          go (part v) ((a / 4, v) :: snaps) (ready.map (fun n => n - 1)) s
    else
      let (b, s) := cmisRead o s
      go b snaps ready s

/-! The two-wire port -/

/-- MGT_CTRL.PEC_EN (R382). -/
def pecEn (s : State) : Bool := tb (s.rd (ra 0x006 0x040)) 0
/-- MGT_CTRL.PEC_RDLEN. -/
def pecRdlen (s : State) : Nat := bits (s.rd (ra 0x006 0x040)) 8 8
/-- MGT_STAT.I3C. -/
def mgtI3c : Fld := ⟨0x048, 0, 1⟩
/-- MGT_STAT.DYN_ADDR. -/
def mgtDyn : Fld := ⟨0x048, 1, 7⟩
/-- Page MGT. -/
def mgtP : Nat := 0x006

/-- Whether the port acknowledges an address: MODSEL_N low, the port released, and 0x50 in I2C mode or the dynamic address in I3C mode (R362, R371, R453). -/
def acked (modselN : Bool) (addr : Nat) (s : State) : Bool :=
  !modselN && s.mgmt.released && (if s.flag mgtP mgtI3c then addr == s.fget mgtP mgtDyn else addr == 0x50)

/-- What a transaction has answered. -/
def answer (ack : Bool) (out : List Byte) (s : State) : State := { s with mgmt := { s.mgmt with ack := ack, out := out } }

/-- The PEC over the bytes of a transaction (R365). -/
def pecOf (l : List Nat) : Byte := BitVec.ofNat 8 (crc8 l)

/-- A write transaction: the offset byte and the data, with PEC checked over the whole where it is on (R363, R365). -/
def twWrite (addr : Nat) (data : List Byte) (s : State) : State :=
  if pecEn s then
    let body := data.dropLast
    match data.getLast? with
    | none => answer true [] s
    | some p =>
      if pecOf (2 * addr :: body.map (fun b => b.toNat)) = p then
        match body with
        | [] => answer true [] s
        | o :: r => writeBytes r [] (answer true [] { s with mgmt := { s.mgmt with ptr := o.toNat } })
      else
        let w := whereIs s (match body with | [] => s.mgmt.ptr | o :: _ => o.toNat)
        raise 129 0 (lastErr w.1 w.2 5 true false (answer false [] s))
  else match data with
    | [] => answer true [] s
    | o :: r => writeBytes r [] (answer true [] { s with mgmt := { s.mgmt with ptr := o.toNat } })

/-- A read transaction of `count` bytes, from the offset it sets or the current one; with PEC the data are PEC_RDLEN bytes, then the PEC byte, then 0xFF (R363 to R365). -/
def twRead (addr : Nat) (setOff : Option Byte) (count ready : Nat) (s : State) : State :=
  let s := match setOff with
    | some o => { s with mgmt := { s.mgmt with ptr := o.toNat } }
    | none => s
  let lim := if s.flag mgtP mgtI3c then some ready else none
  if pecEn s then
    let n := pecRdlen s
    let (l, s) := readBytes (min count n) [] lim s
    let head := (match setOff with | some o => [2 * addr, o.toNat] | none => []) ++ [2 * addr + 1]
    let tail := if l.length < n then [] else pecOf (head ++ l.map (fun b => b.toNat)) :: List.replicate count 0xFF#8
    answer true ((l ++ tail).take count) s
  else
    let (l, s) := readBytes count [] lim s
    answer true l s

/-- I2C_WRITE_TRANSACTION (R363, R365). -/
def execI2cWriteTransaction (modselN : Bool) (addr : BitVec 7) (data : List Byte) (s : State) : Host.Outcome State Fault Refusal :=
  nxt (if acked modselN addr.toNat s then twWrite addr.toNat data s else answer false [] s)

/-- I2C_READ_TRANSACTION (R363 to R365). -/
def execI2cReadTransaction (modselN : Bool) (addr : BitVec 7) (setOff : Option Byte) (count ready : Nat) (s : State) :
    Host.Outcome State Fault Refusal :=
  nxt (if acked modselN addr.toNat s then twRead addr.toNat setOff count ready s else answer false [] s)

/-- MODSEL_N_RISE: the transaction under way ends, and a word of it that is not complete is discarded; `partialData` are the offset and the data of a write (R363, R371). With PEC its byte has not come, so that nothing of the write is performed (R365). -/
def execModselNRise (partialData : Option (List Byte)) (s : State) : Host.Outcome State Fault Refusal :=
  nxt (match partialData with
    | some (o :: r) =>
      if !s.mgmt.released then s
      else if pecEn s then
        let w := whereIs s o.toNat
        if r.isEmpty || w.1 == 0xFFF then s else lastErr w.1 (w.2 / 4 * 4) 8 true false s
      else writeBytes r [] { s with mgmt := { s.mgmt with ptr := o.toNat } }
    | _ => s)

/-! CCCs -/

/-- A directed CCC reaches the device: the port is released, in I3C mode, and addressed at the dynamic address (R362). -/
def cccHit (addr : Nat) (s : State) : Bool := s.mgmt.released && s.flag mgtP mgtI3c && addr == s.fget mgtP mgtDyn

/-- SETDASA: static address 0x50 takes a dynamic address, and the port is an I3C target (R362). -/
def execSetdasa (stat dyn : BitVec 7) (s : State) : Host.Outcome State Fault Refusal :=
  nxt (if s.mgmt.released && !s.flag mgtP mgtI3c && stat == 0x50#7 then
    answer true [] ((s.setFlag mgtP mgtI3c true).fset mgtP mgtDyn dyn.toNat)
  else answer false [] s)

/-- RSTDAA: back to I2C mode (R362). -/
def execRstdaa (s : State) : Host.Outcome State Fault Refusal :=
  nxt (if s.mgmt.released && s.flag mgtP mgtI3c then answer true [] ((s.setFlag mgtP mgtI3c false).fset mgtP mgtDyn 0) else s)

/-- SETNEWDA (R362). -/
def execSetnewda (addr dyn : BitVec 7) (s : State) : Host.Outcome State Fault Refusal :=
  nxt (if cccHit addr.toNat s then answer true [] (s.fset mgtP mgtDyn dyn.toNat) else answer false [] s)

/-- GETPID: the provisioned ID, whose value the spec does not give (R362; log entry 46). -/
def execGetpid (addr : BitVec 7) (s : State) : Host.Outcome State Fault Refusal :=
  nxt (if cccHit addr.toNat s then answer true ((List.range 6).map Config.i3cId) s else answer false [] s)

/-- GETBCR (R362; log entry 46). -/
def execGetbcr (addr : BitVec 7) (s : State) : Host.Outcome State Fault Refusal :=
  nxt (if cccHit addr.toNat s then answer true [Config.i3cId 6] s else answer false [] s)

/-- GETDCR (R362; log entry 46). -/
def execGetdcr (addr : BitVec 7) (s : State) : Host.Outcome State Fault Refusal :=
  nxt (if cccHit addr.toNat s then answer true [Config.i3cId 7] s else answer false [] s)

/-- GETSTATUS: two bytes that the spec leaves open (R362; log entry 46). -/
def execGetstatus (addr : BitVec 7) (s : State) : Host.Outcome State Fault Refusal :=
  nxt (if cccHit addr.toNat s then
    let (v, s) := s.draw 16
    answer true [BitVec.ofNat 8 (v / 256), BitVec.ofNat 8 v] s
  else answer false [] s)

/-- ENEC (R362). -/
def execEnec (events : Byte) (s : State) : Host.Outcome State Fault Refusal :=
  nxt (if s.mgmt.released && s.flag mgtP mgtI3c then { s with mgmt := { s.mgmt with events := s.mgmt.events ||| events } } else s)

/-- DISEC (R362). -/
def execDisec (events : Byte) (s : State) : Host.Outcome State Fault Refusal :=
  nxt (if s.mgmt.released && s.flag mgtP mgtI3c then { s with mgmt := { s.mgmt with events := s.mgmt.events &&& ~~~events } } else s)

/-! SPI -/

/-- A word as SPI sends it, the most significant byte first (R370). -/
def spiBytes (v : Nat) : List Byte := (bytesLE 4 v).reverse

/-- SPI_WRITE: words at an address that advances by 4, ignored until the ports are ready (R370, R453). -/
def execSpiWrite (addr : BitVec 24) (words : List Word) (s : State) : Host.Outcome State Fault Refusal :=
  nxt (if s.mgmt.released && s.boot.ready then
    each (words.zip (List.range words.length)) (fun x s =>
      if s.boot.ready then nativeWrite .spi ((addr.toNat / 4 * 4 + 4 * x.2) % 2 ^ 22) x.1.toNat s else s) s
  else s)

/-- The words of an SPI read: for each, its wait bytes, the start byte and the word (R370). -/
def spiReads : List Nat → Nat → State → List Byte × State
  | [], _, s => ([], s)
  | w :: r, a, s =>
    let (v, s) := busRead .spi (a % 2 ^ 22) s
    let x := spiReads r (a + 4) s
    (List.replicate (min w 19) 0xFF#8 ++ [0x5A#8] ++ spiBytes v ++ x.1, x.2)

/-- SPI_READ: one word for each number of wait bytes (R370, R453). -/
def execSpiRead (addr : BitVec 24) (waits : List Nat) (s : State) : Host.Outcome State Fault Refusal :=
  nxt (if s.mgmt.released && s.boot.ready then
    let x := spiReads waits (addr.toNat / 4 * 4) s
    { x.2 with mgmt := { x.2.mgmt with out := x.1 } }
  else { s with mgmt := { s.mgmt with out := [] } })

/-! Apply -/

/-- A field of a word as a register write makes it. -/
def intoFld (s : State) (a lsb w : Nat) (x : Int) : Nat := setBits (s.rd a) lsb w (enc2 w x)

/-- The writes of R145 for host lane h, whose HRX main tap is `main`: native address and word. -/
def siWrites (s : State) (h : Host16) (main : Nat) : List (Nat × Nat) :=
  let b := h.val / 8
  let i := h.val % 8
  let hr (o : Nat) : Nat := ra (hrxP h) o
  let ht (o : Nat) : Nat := ra (htxP h) o
  let ad := (cmisByte s (page10 b 153)).getLsbD i
  let t := cmisNibble s (page10 b 156) i
  let p : Int := (min (cmisNibble s (page10 b 162) i) 7 : Nat)
  let q : Int := (min (cmisNibble s (page10 b 166) i) 7 : Nat)
  let a := min (cmisNibble s (page10 b 170) i) 3
  let fixed := if ad then [] else
    (hr 0x044, intoFld s (hr 0x044) 0 5 (min (2 * t) 20 : Nat)) :: (hr 0x0D0, intoFld s (hr 0x0D0) 0 8 0)
      :: (List.range 24).map (fun k => (hr (0x070 + 4 * k), intoFld s (hr (0x070 + 4 * k)) 0 10 (if k = main then 256 else 0)))
  let taps : List Int := [0, -p, 64 - p - 2 * q, -(2 * q), 0, 0]
  (hr 0x048, setBits (s.rd (hr 0x048)) 0 4 (if ad then 15 else 0)) :: fixed
    ++ (taps.zip (List.range 6)).map (fun x => (ht (0x050 + 4 * x.2), intoFld s (ht (0x050 + 4 * x.2)) 0 8 x.1))
    ++ [(ht 0x044, intoFld s (ht 0x044) 0 5 (4 + 6 * a : Nat)),
      (ht 0x048, setBits (s.rd (ht 0x048)) 0 1 (bit (!(cmisByte s (page10 b 138)).getLsbD i)))]

/-- The HRX main tap that a data path gives host lane h. -/
def mainOf (s : State) (d : DataPath) (h : Host16) : Nat :=
  match d.hrx.find? (fun e => e.1 == h) with
  | some e => e.2.toNat % 16
  | none => s.rd (ra (hrxP h) 0x040) % 16

/-- The signal-integrity values of data paths are written (R145, R369). -/
def siApply (paths : List DataPath) (s : State) : State :=
  each (paths.filter (fun d => d.explicit)) (fun d s =>
    each (mapHosts d.map.toNat) (fun (h : Host16) s =>
      each (siWrites s h (mainOf s d h)) (fun x s => busWrite .sheet x.1 x.2 s) s) s) s

/-- The host lanes of data paths. -/
def pathHosts (paths : List DataPath) : List Nat :=
  (paths.flatMap (fun d => (mapHosts d.map.toNat).map (fun (h : Host16) => h.val) ++ d.hrx.map (fun e => e.1.val) ++ d.htx.map (fun e => e.1.val))).eraseDups

/-- The pages of data paths: XBAR, and the LFM, HRX and HTX pages (R369). -/
def pathPages (paths : List DataPath) : List Nat :=
  (0x008 :: paths.flatMap (fun d => lfmP d.lane.val :: d.hrx.map (fun e => hrxP e.1.val) ++ d.htx.map (fun e => htxP e.1.val))).eraseDups

/-- The staged settings of one data path (R369). -/
def stagePath (d : DataPath) (s : State) : State :=
  let put (a : Nat) (v : Word) (s : State) : State := busWrite .sheet (a + twin) v.toNat s
  let s := put (ra (lfmP d.lane.val) 0x040) d.lfm (put (ra 0x008 (0x040 + 4 * d.lane.val)) d.map s)
  let s := each d.hrx (fun e s => put (ra (hrxP e.1.val) 0x040) e.2 s) s
  each d.htx (fun e s => put (ra (htxP e.1.val) 0x040) e.2 s) s

/-- The configuration status of a failed press (R369). -/
def cfgCode (f : PressFail) : Nat :=
  if f.cause = 2 then (if 0x040 ≤ f.page ∧ f.page < 0x060 then 5 else if 0x030 ≤ f.page ∧ f.page < 0x038 then 3 else 2)
  else if f.cause = 3 then 7
  else if f.cause = 4 then 6
  else 2

/-- ApplyDPInit: the settings are staged, their pages parked, pressed in one group and unparked, and the configuration status follows the press (R369, R375 to R377; log entry 47). -/
def applyDpinit (paths : List DataPath) (s : State) : State :=
  let hosts := pathHosts paths
  let pages := pathPages paths
  let s := siApply paths (each paths stagePath (cfgStatus hosts 12 s))
  match pages.find? (inPress s) with
  | some _ => cfgStatus hosts 2 (pressPages true pages s)
  | none =>
    let s := each (pages.filter (fun p => !s.parked p)) becomeParked s
    let s := match pressCheck s pages <|> (paceFail s pages).map (paceErr s pages) with
      | some f => cfgStatus hosts (cfgCode f) (pressPages true pages s)
      | none => pressStart true pages hosts s
    each pages unparkOp s

/-- Apply reaches the front-end: it answers, and the device is not in standalone mode; else the write is discarded with its cause (R372, R380). -/
def applyGate (f : State → State) (s : State) : State :=
  if s.shut then lastErr 0xFFF 143 7 true false s
  else if !frontUp s then lastErr 0xFFF 143 1 true false s
  else if tb (s.rd (ra 0x000 0x050)) 0 then lastErr 0xFFF 143 9 true false s
  else f s

/-- CMIS_APPLY_DPINIT (R369). -/
def execCmisApplyDpinit (paths : List DataPath) (s : State) : Host.Outcome State Fault Refusal := nxt (applyGate (applyDpinit paths) s)

/-- Whether a data path changes signal-integrity controls alone (R369). -/
def onlySi (s : State) (d : DataPath) : Bool :=
  d.map.toNat % 2048 == s.mapOf d.lane % 2048 && d.lfm.toNat == s.rd (ra (lfmP d.lane.val) 0x040)
    && d.hrx.all (fun e => e.2.toNat == s.rd (ra (hrxP e.1.val) 0x040)) && d.htx.all (fun e => e.2.toNat == s.rd (ra (htxP e.1.val) 0x040))

/-- CMIS_APPLY_IMMEDIATE: signal-integrity values alone are written and an epoch is strobed; otherwise as ApplyDPInit (R369). -/
def execCmisApplyImmediate (paths : List DataPath) (s : State) : Host.Outcome State Fault Refusal :=
  nxt (applyGate (fun s =>
    if paths.all (onlySi s) then
      let mask := (List.range 8).foldl (fun a n => a + bit (paths.any (fun d => d.lane.val == n)) * 2 ^ n) 0
      cfgStatus (pathHosts paths) 1 (epochStrobe mask (siApply paths s))
    else applyDpinit paths s) s)

/-! Requests from the far end -/

/-- An operation with the far end's bank, page and an offset in place of the host's, which stand again afterwards (R284). -/
def asSelected (bank page : Byte) (off : Nat) (f : State → State) (s : State) : State :=
  let b := cmisByte s 126
  let p := cmisByte s 127
  let o := s.mgmt.ptr
  let s := cmisPut 127 page (cmisPut 126 bank { s with mgmt := { s.mgmt with ptr := off } })
  let s := f s
  cmisPut 127 p (cmisPut 126 b { s with mgmt := { s.mgmt with ptr := o } })

/-- Whether a request's bank, page and range are supported: 1 to 128 bytes that end within the page, in lower memory, a page of R366 or a vendor window (R284). -/
def reqRange (bank page off count : Byte) : Bool :=
  decide (1 ≤ count.toNat ∧ count.toNat ≤ 128 ∧ off.toNat + count.toNat ≤ 256)
    && (decide (off.toNat + count.toNat ≤ 128) || decide (0x80 ≤ page.toNat ∧ page.toNat < 0x90) || (cmisKey bank.toNat page.toNat 255).isSome)

/-- Whether no byte that a write names is a read-only location: of a vendor window, a byte of a native register whose every bit is read-only (R284; log entry 43). -/
def reqWritable (bank page off count : Byte) : Bool :=
  (List.range count.toNat).all (fun i =>
    let o := off.toNat + i
    if 128 ≤ o ∧ 0x80 ≤ page.toNat ∧ page.toNat < 0x90 then
      !readOnly ((bank.toNat * 16 + (page.toNat - 0x80)) * 128 + (o - 128))
    else o == 126 || o == 127 || (match cmisKey bank.toNat page.toNat o with | some k => cmisWritable k | none => false))

/-- The bytes of a request's range that lie in lower memory. -/
def lowCount (off count : Byte) : Nat := min count.toNat (128 - off.toNat)

/-- The bytes that a READ_REQ reads, those of lower memory and then those of the page (R284). -/
def reqRead (b p o c : Byte) (s : State) : List Byte × State :=
  let part (off k : Nat) (s : State) : State :=
    if k = 0 then { s with mgmt := { s.mgmt with out := [] } }
    else asSelected b p off (fun s => let x := readBytes k [] none s; { x.2 with mgmt := { x.2.mgmt with out := x.1 } }) s
  let k := lowCount o c
  let t := part o.toNat k s
  let u := part (o.toNat + k) (c.toNat - k) t
  (t.mgmt.out ++ u.mgmt.out, { u with mgmt := { u.mgmt with out := s.mgmt.out } })

/-- The writes of a WRITE_REQ, those of lower memory, where bytes 126 and 127 are the host's own bank and page, and then those of the page (R284). -/
def reqWrite (b p o c : Byte) (data : List Byte) (s : State) : State :=
  let k := lowCount o c
  let s := asSelected b p o.toNat (writeBytes (data.take k) []) s
  let s := if k < data.length then asSelected b p (o.toNat + k) (writeBytes (data.drop k) []) s else s
  each [126, 127] (fun i s => if o.toNat ≤ i ∧ i < o.toNat + k then cmisWrite i (nth 0 data (i - o.toNat)) s else s) s

/-- A response frame with the request's SEQ (R284, R287). -/
def respond (n : Lane) (f : WmkSlot) (typ : Nat) (payload : List Byte) (s : State) : State :=
  wmkQueue n { cls := 0, typ := typ, seq := bits f.hdr.toNat 12 8, payload := payload } s

/-- Byte i of a request. -/
def reqByte (f : WmkSlot) (i : Nat) : Byte := nth 0 f.payload i

/-- READ_REQ: the response, and a copy to a slot under RX_ALL (R279, R284). -/
def readTake (n : Lane) (f : WmkSlot) (s : State) : State :=
  let (b, p, o, c) := (reqByte f 0, reqByte f 1, reqByte f 2, reqByte f 3)
  let (st, data, s) : Byte × List Byte × State :=
    if !frontUp s then (3, [], s)
    else if !(reqRange b p o c && f.payload.length == 4) then (1, [], s)
    else if !tb (s.rd (ra (wmkP n) 0x040)) 7 then (2, [], s)
    else let x := reqRead b p o c s; (0, x.1, x.2)
  alsoSlot n f (respond n f 2 ([st, p, o, c] ++ data) s)

/-- WRITE_REQ: the response, and a copy to a slot under RX_ALL (R279, R284, R372). -/
def writeTake (n : Lane) (f : WmkSlot) (s : State) : State :=
  let (b, p, o, c) := (reqByte f 0, reqByte f 1, reqByte f 2, reqByte f 3)
  let (st, s) : Byte × State :=
    if !frontUp s then (3, s)
    else if !(reqRange b p o c && f.payload.length == 4 + c.toNat) then (1, s)
    else if !tb (s.rd (ra (wmkP n) 0x040)) 8 || tb (s.rd (ra 0x000 0x050)) 0 || !reqWritable b p o c then (2, s)
    else (0, reqWrite b p o c (f.payload.drop 4) s)
  alsoSlot n f (respond n f 4 [st, p, o, c] s)

/-- A good frame is handed on by its TYPE (R279). -/
def handOn (n : Lane) (f : WmkSlot) (s : State) : State :=
  match rxTyp f with
  | 1 => readTake n f s
  | 3 => writeTake n f s
  | 5 => capTake n f s
  | 6 => latTake n f s
  | _ => toSlot n f s

/-! The five commands of a reception carry the hard symbol decisions of the interval at whose end the frame that each names has passed its payload CRC; what they hold is found in the symbols (R281). -/

/-- READ_REQ (R284). -/
def execReadReq (n : Lane) (symbols : List Bool) (s : State) : Host.Outcome State Fault Refusal := nxt (wmkReceive (handOn n) n symbols s)

/-- WRITE_REQ (R284). -/
def execWriteReq (n : Lane) (symbols : List Bool) (s : State) : Host.Outcome State Fault Refusal := nxt (wmkReceive (handOn n) n symbols s)

/-- CAP (R285). -/
def execCapFrame (n : Lane) (symbols : List Bool) (s : State) : Host.Outcome State Fault Refusal := nxt (wmkReceive (handOn n) n symbols s)

/-- LAT (R286). -/
def execLatFrame (n : Lane) (symbols : List Bool) (s : State) : Host.Outcome State Fault Refusal := nxt (wmkReceive (handOn n) n symbols s)

/-- WMK_SLOT_FRAME: a response or a USER frame (R282). -/
def execWmkSlotFrame (n : Lane) (symbols : List Bool) (s : State) : Host.Outcome State Fault Refusal := nxt (wmkReceive (handOn n) n symbols s)

end Sys2Proof.Machine
end

