-- ==== Sys2Proof/Machine/Dispatch.lean ====
section
/-! DEFINITION. The dispatch of every command to its meaning, one arm per row of spec/opcode_table.json. -/

namespace Sys2Proof.Machine

/-- The effect of a command on the state, its queue apart. -/
def exec (i : Instr) (s : State) : Host.Outcome State Fault Refusal :=
  match i with
  | .i2cWriteTransaction modselN addr data => Sys2Proof.Machine.execI2cWriteTransaction modselN addr data s
  | .i2cReadTransaction modselN addr setOff count ready => Sys2Proof.Machine.execI2cReadTransaction modselN addr setOff count ready s
  | .setdasa stat dyn => Sys2Proof.Machine.execSetdasa stat dyn s
  | .rstdaa => Sys2Proof.Machine.execRstdaa s
  | .setnewda addr dyn => Sys2Proof.Machine.execSetnewda addr dyn s
  | .getpid addr => Sys2Proof.Machine.execGetpid addr s
  | .getbcr addr => Sys2Proof.Machine.execGetbcr addr s
  | .getdcr addr => Sys2Proof.Machine.execGetdcr addr s
  | .getstatus addr => Sys2Proof.Machine.execGetstatus addr s
  | .enec events => Sys2Proof.Machine.execEnec events s
  | .disec events => Sys2Proof.Machine.execDisec events s
  | .spiWrite addr words => Sys2Proof.Machine.execSpiWrite addr words s
  | .spiRead addr waits => Sys2Proof.Machine.execSpiRead addr waits s
  | .modselNRise partialData => Sys2Proof.Machine.execModselNRise partialData s
  | .registerWrite port addr value => Sys2Proof.Machine.execRegisterWrite port addr value s
  | .cmisApplyDpinit paths => Sys2Proof.Machine.execCmisApplyDpinit paths s
  | .cmisApplyImmediate paths => Sys2Proof.Machine.execCmisApplyImmediate paths s
  | .cmisSoftwareReset env => Sys2Proof.Machine.execCmisSoftwareReset env s
  | .modulePwrUp => Sys2Proof.Machine.execModulePwrUp s
  | .park page => Sys2Proof.Machine.execPark page s
  | .parked page => Sys2Proof.Machine.execParked page s
  | .unpark page => Sys2Proof.Machine.execUnpark page s
  | .unparkRestart page => Sys2Proof.Machine.execUnparkRestart page s
  | .press page => Sys2Proof.Machine.execPress page s
  | .pressGo => Sys2Proof.Machine.execPressGo s
  | .discard page => Sys2Proof.Machine.execDiscard page s
  | .pressApply lane rx => Sys2Proof.Machine.execPressApply lane rx s
  | .outModeSwitchDone lane => Sys2Proof.Machine.execOutModeSwitchDone lane s
  | .epoch mask => Sys2Proof.Machine.execEpoch mask s
  | .epochApply lane rx => Sys2Proof.Machine.execEpochApply lane rx s
  | .nlCopyDone lane => Sys2Proof.Machine.execNlCopyDone lane s
  | .rampStep lane rx => Sys2Proof.Machine.execRampStep lane rx s
  | .evtStatClear addr value meets => Sys2Proof.Machine.execEvtStatClear addr value meets s
  | .evtForce page value => Sys2Proof.Machine.execEvtForce page value s
  | .logGrant ev => Sys2Proof.Machine.execLogGrant ev s
  | .logLoRead => Sys2Proof.Machine.execLogLoRead s
  | .logPop => Sys2Proof.Machine.execLogPop s
  | .txFrame lane hostA hostB ahead => Sys2Proof.Machine.execTxFrame lane hostA hostB ahead s
  | .rxFrame lane samples wmk released => Sys2Proof.Machine.execRxFrame lane samples wmk released s
  | .lfmJustOvf lane above hostA hostB => Sys2Proof.Machine.execLfmJustOvf lane above hostA hostB s
  | .lateToken lane rx token => Sys2Proof.Machine.execLateToken lane rx token s
  | .losAssert lane => Sys2Proof.Machine.execLosAssert lane s
  | .losDeassert lane => Sys2Proof.Machine.execLosDeassert lane s
  | .cdrLock lane => Sys2Proof.Machine.execCdrLock lane s
  | .cdrUnlock lane => Sys2Proof.Machine.execCdrUnlock lane s
  | .clipBlockEnd lane => Sys2Proof.Machine.execClipBlockEnd lane s
  | .gradientPublish lane => Sys2Proof.Machine.execGradientPublish lane s
  | .gradStatRead page => Sys2Proof.Machine.execGradStatRead page s
  | .qualityWindowEnd lane => Sys2Proof.Machine.execQualityWindowEnd lane s
  | .ltxComply lane pinP pinN above => Sys2Proof.Machine.execLtxComply lane pinP pinN above s
  | .complyClear lane => Sys2Proof.Machine.execComplyClear lane s
  | .wavPlaybackUe lane sample => Sys2Proof.Machine.execWavPlaybackUe lane sample s
  | .wavDataAccess lane write => Sys2Proof.Machine.execWavDataAccess lane write s
  | .nlDataAccess lane write => Sys2Proof.Machine.execNlDataAccess lane write s
  | .laneDuskEntry lane => Sys2Proof.Machine.execLaneDuskEntry lane s
  | .signalDetectWake lane => Sys2Proof.Machine.execSignalDetectWake lane s
  | .duskExit mask => Sys2Proof.Machine.execDuskExit mask s
  | .laneWakingDone lane => Sys2Proof.Machine.execLaneWakingDone lane s
  | .duskBeacon lane => Sys2Proof.Machine.execDuskBeacon lane s
  | .sourceFirstGood lane rx => Sys2Proof.Machine.execSourceFirstGood lane rx s
  | .holdoverEnd lane rx => Sys2Proof.Machine.execHoldoverEnd lane rx s
  | .realign lane rx => Sys2Proof.Machine.execRealign lane rx s
  | .desyncRecentre lane => Sys2Proof.Machine.execDesyncRecentre lane s
  | .slipBufferRecentre lane => Sys2Proof.Machine.execSlipBufferRecentre lane s
  | .deskewRecentre lane => Sys2Proof.Machine.execDeskewRecentre lane s
  | .refclkLoss line => Sys2Proof.Machine.execRefclkLoss line s
  | .refclkOk line ppm => Sys2Proof.Machine.execRefclkOk line ppm s
  | .htxPllLock host => Sys2Proof.Machine.execHtxPllLock host s
  | .htxPllLol host => Sys2Proof.Machine.execHtxPllLol host s
  | .hrxLosAssert host => Sys2Proof.Machine.execHrxLosAssert host s
  | .hrxCdrLol host => Sys2Proof.Machine.execHrxCdrLol host s
  | .hqfWindowEnd host => Sys2Proof.Machine.execHqfWindowEnd host s
  | .hrxGradientPublish host => Sys2Proof.Machine.execHrxGradientPublish host s
  | .prbsCheckerLock host => Sys2Proof.Machine.execPrbsCheckerLock host s
  | .latencyMeasurement lane rx hostB fs => Sys2Proof.Machine.execLatencyMeasurement lane rx hostB fs s
  | .latWindowPublish => Sys2Proof.Machine.execLatWindowPublish s
  | .latStatRead => Sys2Proof.Machine.execLatStatRead s
  | .latSelWrite value => Sys2Proof.Machine.execLatSelWrite value s
  | .latCtrlWrite value => Sys2Proof.Machine.execLatCtrlWrite value s
  | .dtcLoRead => Sys2Proof.Machine.execDtcLoRead s
  | .ppsEdge falling => Sys2Proof.Machine.execPpsEdge falling s
  | .ppsTsLoRead => Sys2Proof.Machine.execPpsTsLoRead s
  | .ppsTimeout => Sys2Proof.Machine.execPpsTimeout s
  | .bgEstimateDone lane samples => Sys2Proof.Machine.execBgEstimateDone lane samples s
  | .calVerify lane => Sys2Proof.Machine.execCalVerify lane s
  | .bgVerifyDone lane samples => Sys2Proof.Machine.execBgVerifyDone lane samples s
  | .calSwap lane => Sys2Proof.Machine.execCalSwap lane s
  | .sliceSwap lane => Sys2Proof.Machine.execSliceSwap lane s
  | .calStatRead lane => Sys2Proof.Machine.execCalStatRead lane s
  | .fgReq lane => Sys2Proof.Machine.execFgReq lane s
  | .foregroundCalDone lane corrs failed rqfs again errors => Sys2Proof.Machine.execForegroundCalDone lane corrs failed rqfs again errors s
  | .corrDataWrite lane value => Sys2Proof.Machine.execCorrDataWrite lane value s
  | .istStart value => Sys2Proof.Machine.execIstStart value s
  | .istDone outcome => Sys2Proof.Machine.execIstDone outcome s
  | .stepMpy e => Sys2Proof.Machine.execStepMpy e s
  | .stepMac e => Sys2Proof.Machine.execStepMac e s
  | .stepMsu e => Sys2Proof.Machine.execStepMsu e s
  | .stepAdd e => Sys2Proof.Machine.execStepAdd e s
  | .stepSub e => Sys2Proof.Machine.execStepSub e s
  | .stepMin e => Sys2Proof.Machine.execStepMin e s
  | .stepMax e => Sys2Proof.Machine.execStepMax e s
  | .stepMinx e => Sys2Proof.Machine.execStepMinx e s
  | .stepMaxx e => Sys2Proof.Machine.execStepMaxx e s
  | .stepShl e => Sys2Proof.Machine.execStepShl e s
  | .stepShr e => Sys2Proof.Machine.execStepShr e s
  | .stepAnd e => Sys2Proof.Machine.execStepAnd e s
  | .stepOr e => Sys2Proof.Machine.execStepOr e s
  | .stepXor e => Sys2Proof.Machine.execStepXor e s
  | .stepLd e => Sys2Proof.Machine.execStepLd e s
  | .ldDataReturn e => Sys2Proof.Machine.execLdDataReturn e s
  | .stepSt e => Sys2Proof.Machine.execStepSt e s
  | .stQueueFree e => Sys2Proof.Machine.execStQueueFree e s
  | .stepMov e => Sys2Proof.Machine.execStepMov e s
  | .stepBr e => Sys2Proof.Machine.execStepBr e s
  | .stepBrc e => Sys2Proof.Machine.execStepBrc e s
  | .stepWait e => Sys2Proof.Machine.execStepWait e s
  | .waitSource e => Sys2Proof.Machine.execWaitSource e s
  | .waitTimeout e => Sys2Proof.Machine.execWaitTimeout e s
  | .stepSig e => Sys2Proof.Machine.execStepSig e s
  | .stepEnd e => Sys2Proof.Machine.execStepEnd e s
  | .engWdog e => Sys2Proof.Machine.execEngWdog e s
  | .engAbort e => Sys2Proof.Machine.execEngAbort e s
  | .engEnWrite e on => Sys2Proof.Machine.execEngEnWrite e on s
  | .hostCmd code => Sys2Proof.Machine.execHostCmd code s
  | .seqTimerExpiry k => Sys2Proof.Machine.execSeqTimerExpiry k s
  | .tmrWrite k value => Sys2Proof.Machine.execTmrWrite k value s
  | .requestDispatch => Sys2Proof.Machine.execRequestDispatch s
  | .requestPromotion idx => Sys2Proof.Machine.execRequestPromotion idx s
  | .drainTimeout => Sys2Proof.Machine.execDrainTimeout s
  | .xyDataAccess e write => Sys2Proof.Machine.execXyDataAccess e write s
  | .sheetReloadDone sheet flashOk => Sys2Proof.Machine.execSheetReloadDone sheet flashOk s
  | .scrubLine region upsets late => Sys2Proof.Machine.execScrubLine region upsets late s
  | .scrubWriteBack mac bytes => Sys2Proof.Machine.execScrubWriteBack mac bytes s
  | .leakTick => Sys2Proof.Machine.execLeakTick s
  | .leakTWrite value => Sys2Proof.Machine.execLeakTWrite value s
  | .ueClear => Sys2Proof.Machine.execUeClear s
  | .flipMaskWrite value => Sys2Proof.Machine.execFlipMaskWrite value s
  | .memReloaded region => Sys2Proof.Machine.execMemReloaded region s
  | .lpReqWrite req => Sys2Proof.Machine.execLpReqWrite req s
  | .lpmodeChange high => Sys2Proof.Machine.execLpmodeChange high s
  | .deviceIdleExpiry => Sys2Proof.Machine.execDeviceIdleExpiry s
  | .lpEntryComplete => Sys2Proof.Machine.execLpEntryComplete s
  | .pwrWakeWrite => Sys2Proof.Machine.execPwrWakeWrite s
  | .wakeTimerExpiry => Sys2Proof.Machine.execWakeTimerExpiry s
  | .lpSignalDetect lane => Sys2Proof.Machine.execLpSignalDetect lane s
  | .wakeDone upsets => Sys2Proof.Machine.execWakeDone upsets s
  | .paceCheck caps => Sys2Proof.Machine.execPaceCheck caps s
  | .vcoreReqWrite code => Sys2Proof.Machine.execVcoreReqWrite code s
  | .avsWriteDone result readMv => Sys2Proof.Machine.execAvsWriteDone result readMv s
  | .confirmedSet caps rep => Sys2Proof.Machine.execConfirmedSet caps rep s
  | .pwrDomainFault domain => Sys2Proof.Machine.execPwrDomainFault domain s
  | .sensorStale sensor => Sys2Proof.Machine.execSensorStale sensor s
  | .hkPassStart b => Sys2Proof.Machine.execHkPassStart b s
  | .hkConversionDone b before bits phases tied => Sys2Proof.Machine.execHkConversionDone b before bits phases tied s
  | .guardTimerExpiry n => Sys2Proof.Machine.execGuardTimerExpiry n s
  | .hostReqStart b => Sys2Proof.Machine.execHostReqStart b s
  | .resSumLoRead b slot => Sys2Proof.Machine.execResSumLoRead b slot s
  | .fcSync b => Sys2Proof.Machine.execFcSync b s
  | .fcShiftChange b value => Sys2Proof.Machine.execFcShiftChange b value s
  | .fcCommit b banks => Sys2Proof.Machine.execFcCommit b banks s
  | .fastTrip n tied => Sys2Proof.Machine.execFastTrip n tied s
  | .keepTimeout n tied => Sys2Proof.Machine.execKeepTimeout n tied s
  | .holdLbWrite n value => Sys2Proof.Machine.execHoldLbWrite n value s
  | .retryIntervalEnd n => Sys2Proof.Machine.execRetryIntervalEnd n s
  | .laserOn10s n => Sys2Proof.Machine.execLaserOn10s n s
  | .lbEnWrite n on => Sys2Proof.Machine.execLbEnWrite n on s
  | .swDisWrite n dis => Sys2Proof.Machine.execSwDisWrite n dis s
  | .clrFault n => Sys2Proof.Machine.execClrFault n s
  | .txDisAssert => Sys2Proof.Machine.execTxDisAssert s
  | .txDisDeassert => Sys2Proof.Machine.execTxDisDeassert s
  | .vauxLow => Sys2Proof.Machine.execVauxLow s
  | .vauxOk => Sys2Proof.Machine.execVauxOk s
  | .ldacNFall lowNs => Sys2Proof.Machine.execLdacNFall lowNs s
  | .adacStrobe groups => Sys2Proof.Machine.execAdacStrobe groups s
  | .ncoRestart k => Sys2Proof.Machine.execNcoRestart k s
  | .ncoWrapApply k cycles => Sys2Proof.Machine.execNcoWrapApply k cycles s
  | .ncoTblWrite k value => Sys2Proof.Machine.execNcoTblWrite k value s
  | .mi2cStart p => Sys2Proof.Machine.execMi2cStart p s
  | .mi2cDone p nackAt rdata => Sys2Proof.Machine.execMi2cDone p nackAt rdata s
  | .mi2cStuck p rdata => Sys2Proof.Machine.execMi2cStuck p rdata s
  | .wmkSend lane => Sys2Proof.Machine.execWmkSend lane s
  | .wmkFrameStart lane => Sys2Proof.Machine.execWmkFrameStart lane s
  | .wmkFrameSent lane => Sys2Proof.Machine.execWmkFrameSent lane s
  | .readReq lane symbols => Sys2Proof.Machine.execReadReq lane symbols s
  | .writeReq lane symbols => Sys2Proof.Machine.execWriteReq lane symbols s
  | .capFrame lane symbols => Sys2Proof.Machine.execCapFrame lane symbols s
  | .latFrame lane symbols => Sys2Proof.Machine.execLatFrame lane symbols s
  | .wmkSlotFrame lane symbols => Sys2Proof.Machine.execWmkSlotFrame lane symbols s
  | .rxRelease lane => Sys2Proof.Machine.execRxRelease lane s
  | .wmkLock lane peak => Sys2Proof.Machine.execWmkLock lane peak s
  | .wmkLockLoss lane => Sys2Proof.Machine.execWmkLockLoss lane s
  | .capTimer lane => Sys2Proof.Machine.execCapTimer lane s
  | .latTimer lane => Sys2Proof.Machine.execLatTimer lane s
  | .flareSend lane => Sys2Proof.Machine.execFlareSend lane s
  | .flareTxEnd lane copies => Sys2Proof.Machine.execFlareTxEnd lane copies s
  | .flareCrossing lane => Sys2Proof.Machine.execFlareCrossing lane s
  | .flareRxClear lane => Sys2Proof.Machine.execFlareRxClear lane s
  | .holdExpiry lane => Sys2Proof.Machine.execHoldExpiry lane s
  | .obsSnap clr => Sys2Proof.Machine.execObsSnap clr s
  | .snapDone => Sys2Proof.Machine.execSnapDone s
  | .obsAck => Sys2Proof.Machine.execObsAck s
  | .valueLoRead => Sys2Proof.Machine.execValueLoRead s
  | .capArm k => Sys2Proof.Machine.execCapArm k s
  | .capStop k => Sys2Proof.Machine.execCapStop k s
  | .capForce k => Sys2Proof.Machine.execCapForce k s
  | .capTimerExpiry k second => Sys2Proof.Machine.execCapTimerExpiry k second s
  | .capDone k => Sys2Proof.Machine.execCapDone k s
  | .capBufferHigh k => Sys2Proof.Machine.execCapBufferHigh k s
  | .capDataLoRead k => Sys2Proof.Machine.execCapDataLoRead k s
  | .tracePointTimer => Sys2Proof.Machine.execTracePointTimer s
  | .attest => Sys2Proof.Machine.execAttest s
  | .attestDone salt => Sys2Proof.Machine.execAttestDone salt s
  | .rollAdv unlock => Sys2Proof.Machine.execRollAdv unlock s
  | .keyProg unlock slot => Sys2Proof.Machine.execKeyProg unlock slot s
  | .keyRevoke unlock slot => Sys2Proof.Machine.execKeyRevoke unlock slot s
  | .obsLock unlock => Sys2Proof.Machine.execObsLock unlock s
  | .fuseBlowDone ok => Sys2Proof.Machine.execFuseBlowDone ok s
  | .dlDataWrite value => Sys2Proof.Machine.execDlDataWrite value s
  | .dlVerify => Sys2Proof.Machine.execDlVerify s
  | .dlProgram slot => Sys2Proof.Machine.execDlProgram slot s
  | .dlProgramDone ok => Sys2Proof.Machine.execDlProgramDone ok s
  | .dlActivate => Sys2Proof.Machine.execDlActivate s
  | .dlActivateDone => Sys2Proof.Machine.execDlActivateDone s
  | .dlAbort => Sys2Proof.Machine.execDlAbort s
  | .setPref slot => Sys2Proof.Machine.execSetPref slot s
  | .idReady => Sys2Proof.Machine.execIdReady s
  | .recWrite => Sys2Proof.Machine.execRecWrite s
  | .recRead => Sys2Proof.Machine.execRecRead s
  | .blackbox => Sys2Proof.Machine.execBlackbox s
  | .nvRecordCommit => Sys2Proof.Machine.execNvRecordCommit s
  | .porAssert => Sys2Proof.Machine.execPorAssert s
  | .porRelease env => Sys2Proof.Machine.execPorRelease env s
  | .railLate => Sys2Proof.Machine.execRailLate s
  | .resetN lowNs env => Sys2Proof.Machine.execResetN lowNs env s
  | .devRst key env => Sys2Proof.Machine.execDevRst key env s
  | .hrxLosDeassert host => Sys2Proof.Machine.execHrxLosDeassert host s
  | .hrxCdrLock host => Sys2Proof.Machine.execHrxCdrLock host s
  | .huntCommaFound lane ahead samples wmk => Sys2Proof.Machine.execHuntCommaFound lane ahead samples wmk s
  | .avDitherUpdate m cycles => Sys2Proof.Machine.execAvDitherUpdate m cycles s
  | .constellationTick k count pps => Sys2Proof.Machine.execConstellationTick k count pps s
  | .powerGood domain => Sys2Proof.Machine.execPowerGood domain s
  | .railInRange => Sys2Proof.Machine.execRailInRange s

end Sys2Proof.Machine
end

