-- ==== Sys2Proof/Machine/Idle.lean ====
section
/-! DEFINITION. What passes of itself when no command waits (log entry 9). -/

namespace Sys2Proof.Machine

/-- One idle step: bindings that an event of counting has triggered fire, the device time counter and the pool's occupancy advance, the trace port sends a packet, each capture unit stores a record, and each engine's oldest posted write is accepted (R170, R193, R200, R205, R418, R421; log entry 9). -/
def idle (s : State) : State :=
  let s := trcSend (occTick (tickDtc (fireNext s)))
  let s := each (List.finRange 4) capStore s
  each (List.finRange 5) acceptFront s

end Sys2Proof.Machine
end

