-- ==== Sys2Proof/Safety.lean ====
section
/-! DEFINITION. The terms in which claims speak of safe runs: a command that completes, a memory in canonical form, light and outputs that are off, and the fuses, which only ever go one way. -/

namespace Sys2Proof.Machine

/-- A command completes: exec answers a next state. -/
abbrev Completes (c : Instr) (s : State) : Prop := ∃ t, exec c s = .next t

/-- The memory is in its one canonical form: addresses strictly rising, no entry equal to what an unlisted byte holds (R298, R303, R305). -/
abbrev Memory.wf (m : List Host.Cell) : Prop := kwf memDef m

/-- The check bits are in the same form. -/
abbrev Checks.wf (m : KMap (BitVec 5)) : Prop := kwf chkDef m

/-- No laser emits: every output LBn is at code 0 (R230, R239). -/
abbrev Dark (s : State) : Prop := ∀ n : Lane, lbOut s n = 0

/-- No fuse of `a` has gone back in `b`: slots programmed and revoked stay so, the rollback count does not fall, and the observation lock stays blown (R430, R438 to R440). -/
abbrev FusesKept (a b : SecSt) : Prop :=
  a.progd &&& b.progd = a.progd ∧ a.revoked &&& b.revoked = a.revoked ∧ a.rollF ≤ b.rollF ∧ (a.lock = true → b.lock = true)

/-! What an occurrence may touch -/

/-- The events that counting, firing a binding and reading a counter's word may themselves raise: uncorrectable and correctable words, a sheet not in force, an invalid and a saturated counter (R197, R307, R309, R406, R408). -/
def sideEvents : List Nat := [64, 65, 145, 480, 481]

/-- The registers that the event logic, the star map, the memories' log and the scheduler may change at any occurrence: EVT_COUNT of a page, MEM's buckets, FLIP_MASK, UE_LOG and UE_STAT, EVT.LOST and SEQ.FAULT_INFO (R307, R373, R403, R208). -/
def sideReg (a : Nat) : Bool := a % 1024 == 0x018 || (a / 1024 == 0x00B && decide (0x04C ≤ a % 1024) && decide (a % 1024 < 0x094)) || a == ra 0x003 0x054 || a == ra 0x00C 0x04C

/-- The memory blocks that hold the counters (R298, R406). -/
def ctrBlock (a : Nat) : Bool := 128 ≤ a / 65536 && a / 65536 < 152

/-- `t` is `s` but for occurrences of the events of `E` (and of `sideEvents`) and what the event logic, the counters and the scheduler make of them: every other register, every byte of memory outside the counters' blocks, and every part of the state that is no register, memory, scrub order, event, counter or request stays as it was; status bits only set, and log requests only join their queue. -/
structure OnlyEvents (E : List Nat) (s t : State) : Prop where
  /-- Registers outside `sideReg`. -/
  rd : ∀ a, sideReg a = false → t.rd a = s.rd a
  /-- Bytes outside the counters' blocks. -/
  byte : ∀ a, ctrBlock a = false → t.byte a = s.byte a ∧ t.chkErr a = s.chkErr a ∧ t.written a = s.written a
  /-- Status bits. -/
  stat : ∀ e, s.evt.stat.getLsbD e = true → t.evt.stat.getLsbD e = true
  /-- No status bit sets but of an event named. -/
  only : ∀ e, t.evt.stat.getLsbD e = true → s.evt.stat.getLsbD e = true ∨ e ∈ E ∨ e ∈ sideEvents
  /-- Log requests. -/
  queue : ∃ l, t.evt.queue = s.evt.queue ++ l ∧ ∀ r ∈ l, r.ev ∈ E ∨ r.ev ∈ sideEvents
  /-- The rest of the event logic. -/
  evt : t.evt = { s.evt with stat := t.evt.stat, queue := t.evt.queue, occ := t.evt.occ, lossSince := t.evt.lossSince }
  /-- The requests for runs, and the bindings that fire next. -/
  requests : ∃ l m, t.seq = { s.seq with queue := s.seq.queue ++ l, fired := s.seq.fired ++ m }
  /-- The snapshot of the star map. -/
  obs : t.obs = { s.obs with invalid := t.obs.invalid, restarted := t.obs.restarted, satSeen := t.obs.satSeen }
  /-- Everything else. -/
  rest : t = { s with regs := t.regs, mem := t.mem, chk := t.chk, wflag := t.wflag, ceSeen := t.ceSeen, scrubNext := t.scrubNext, evt := t.evt, obs := t.obs, seq := t.seq }

/-- Event `e` has occurred between `s` and `t`: its status bit is set, and unless two log requests of it waited already, one with DETAIL `d` waits (R386, R387). -/
def Raised (e d : Nat) (s t : State) : Prop :=
  t.evt.stat.getLsbD e = true ∧
    ((s.evt.queue.filter (fun r => r.ev == e)).length < 2 → ∃ r ∈ t.evt.queue, r.ev = e ∧ r.detail = d % 128)

/-- `t` is `s` but for the registers of `L`. -/
def OnlyRegs (L : List Nat) (s t : State) : Prop := (∀ a, a ∉ L → t.rd a = s.rd a) ∧ t = { s with regs := t.regs }

/-- The frame of a command that may also change parts of the state that are no register, memory or event: every register outside `L` and `sideReg`, every byte of memory outside the counters' blocks, and every status bit but those of `E` and `sideEvents` is as it was; no status bit clears. -/
structure Frame (L E : List Nat) (s t : State) : Prop where
  rd : ∀ a, a ∉ L → sideReg a = false → t.rd a = s.rd a
  byte : ∀ a, ctrBlock a = false → t.byte a = s.byte a
  stat : ∀ e, s.evt.stat.getLsbD e = true → t.evt.stat.getLsbD e = true
  only : ∀ e, t.evt.stat.getLsbD e = true → s.evt.stat.getLsbD e = true ∨ e ∈ E ∨ e ∈ sideEvents

/-- The frame of a command that reaches whole blocks: every register of a page outside `P` and outside `sideReg`, every byte of memory outside the counters' blocks, and every status bit but those of `E` and `sideEvents` is as it was; no status bit clears. -/
structure PageFrame (P E : List Nat) (s t : State) : Prop where
  rd : ∀ a, a / 1024 ∉ P → sideReg a = false → t.rd a = s.rd a
  byte : ∀ a, ctrBlock a = false → t.byte a = s.byte a
  stat : ∀ e, s.evt.stat.getLsbD e = true → t.evt.stat.getLsbD e = true
  only : ∀ e, t.evt.stat.getLsbD e = true → s.evt.stat.getLsbD e = true ∨ e ∈ E ∨ e ∈ sideEvents

/-- Engine `e` runs and is about to execute the step `w` of opcode `o`: its watchdog has not run out, PC lies in the sheet's range, and the step's word reads without error (R176, R196, R197). -/
def AtStep (s : State) (e : Eng) (o : Op) (w : StepWord) : Prop :=
  engRuns s e = true ∧ s.eng[e].steps < 65536 ∧ s.eng[e].pc < 32768 ∧ inRange s e = true ∧ stepAt s e = w ∧ opOf w.op = some o
    ∧ ∀ i < 8, eccOf (s.chkErr ((160 + s.eng[e].pc / 8192) * 65536 + 8 * (s.eng[e].pc % 8192) + i)) = .ok

/-- The step of engine `e` has ended: PC and the count of steps advance, and the run goes on. -/
def StepEnds (e : Eng) (s t : State) : Prop :=
  t.eng[e].pc = (s.eng[e].pc + 1) % 32768 ∧ t.eng[e].steps = s.eng[e].steps + 1 ∧ t.eng[e].phase = .running

/-- The registers of a lane's calibration cycle that following the conditions of R212 may change: CAL_STAT and CAL_PEND. -/
def calRegs (n : Lane) : List Nat := [ra bistP (0x044 + 0x20 * n), calPend n]

/-- exec answers a next state, and that state has a property. -/
abbrev Makes (c : Instr) (s : State) (P : State → Prop) : Prop := ∃ t, exec c s = .next t ∧ P t

/-- The command completes with no effect. -/
abbrev Keeps (c : Instr) (s : State) : Prop := exec c s = .next s

end Sys2Proof.Machine
end

