-- ==== Sys2Proof/WellFormed.lean ====
section
/-! DEFINITION. Which commands the spec's interfaces can send: addresses of whole words, lists of the lengths that the rules give. A meaning is total all the same. -/

namespace Sys2Proof

/-- No number of a list occurs twice. -/
def distinct : List Nat → Bool
  | [] => true
  | x :: r => !r.contains x && distinct r

/-- The settings of a data path fit their registers, and it names host lanes of its own (R146, R155, R369). -/
def pathWf (d : DataPath) : Bool :=
  decide (d.map.toNat < 2048) && distinct (d.hrx.map (fun e => e.1.val)) && distinct (d.htx.map (fun e => e.1.val))

/-- A list that gives one item for each of the 65 slices of a lane (R210). -/
def perSlice (l : List Nat) : Bool := decide (l.length = 65)

/-- Slices of a lane by their numbers (R210). -/
def slicesWf (l : List Nat) : Bool := l.all (fun i => decide (i < 65))

/-- An overlay estimate gives one value for each sample, or none is made (R80). -/
def overlayWf (samples wmk : List Int) : Bool := wmk.length == samples.length || wmk.isEmpty

/-- Whether a command is well formed (R6, R80, R155, R210, R254, R298, R334, R340, R370, R437). A command that no arm names takes operands of types that hold nothing ill-formed. -/
def Instr.wf (i : Instr) : Bool :=
  match i with
  | .spiWrite addr _ => decide (addr.toNat < 2 ^ 22) && addr.toNat % 4 == 0
  | .spiRead addr _ => decide (addr.toNat < 2 ^ 22) && addr.toNat % 4 == 0
  | .registerWrite _ addr _ => addr.toNat % 4 == 0
  | .cmisApplyDpinit paths => paths.all pathWf && distinct (paths.map (fun d => d.lane.val))
  | .cmisApplyImmediate paths => paths.all pathWf && distinct (paths.map (fun d => d.lane.val))
  | .evtStatClear addr _ _ => addr.toNat % 4 == 0
  | .foregroundCalDone _ corrs failed rqfs again _ => perSlice corrs && perSlice rqfs && slicesWf failed && slicesWf again
  | .istDone (.lane failed rqfs again _) => perSlice rqfs && slicesWf failed && slicesWf again
  | .paceCheck caps => caps.length == 8
  | .confirmedSet caps _ => caps.length == 8
  | .scrubLine _ upsets _ => upsets.all (fun u => decide (u.1 < 256))
  | .wakeDone upsets => upsets.all (fun u => decide (u.1 < 176 * 65536))
  | .mi2cDone _ _ rdata => decide (rdata.length ≤ 4)
  | .mi2cStuck _ rdata => decide (rdata.length ≤ 4)
  | .rxFrame _ samples wmk _ => overlayWf samples wmk
  | .huntCommaFound _ _ samples wmk => overlayWf samples wmk
  | .attestDone salt => salt.length == 64
  | _ => true

end Sys2Proof
end

