-- ==== Sys2Proof/Certificates/Slice0/Obligations.lean ====
section
/-! DEFINITION. The statements about the BX3208 for the provers. In each, a state `s` is any state, whether a run reaches it or not; `Makes c s P` says that the command completes and its next state has `P`, `Keeps c s` that it completes with no effect; `OnlyEvents`, `OnlyRegs` and `Frame` say what stays as it was. -/

open Sys2Proof Sys2Proof.Machine

/-! Reference clocks, holdover and realignment, the buffers that recentre (spec chapters 5 and 6) -/

/-- A reference clock is lost or returns, and its OK bit and PPM_RX follow, with event 16 or 17 at a loss (R159, R160, R173). SOURCE_FIRST_GOOD, HOLDOVER_END and REALIGN, transmit and receive: a lane slews to its source, HOLD clears, and after a holdover the next frame is a substitute and event 19 names the lane and the direction (R160, R161). -/
def Obligations.ReferencesAndRealignment : Prop :=
  (∀ (s : State) (line : Bool),
    let ok := if line then clkRefl else clkRefh
    let ev := if line then 17 else 16
    (s.flag 0x007 ok = true → Makes (.refclkLoss line) s fun t =>
      t.flag 0x007 ok = false ∧ t.fget 0x007 ⟨0x044, 0, 16⟩ = 0 ∧ Raised ev 0 s t
        ∧ (line = false → OnlyEvents [16] ((s.setFlag 0x007 ok false).fset 0x007 ⟨0x044, 0, 16⟩ 0) t)
        ∧ Frame [ra 0x007 0x040, ra 0x007 0x044] [ev, 18] s t)
    ∧ (s.flag 0x007 ok = false → Keeps (.refclkLoss line) s)
    ∧ (∀ ppm : Int, Makes (.refclkOk line ppm) s fun t =>
      t.flag 0x007 ok = true
        ∧ t.fget 0x007 ⟨0x044, 0, 16⟩
          = (if s.flag 0x007 (if line then clkRefh else clkRefl) then enc2 16 ppm else s.fget 0x007 ⟨0x044, 0, 16⟩)
        ∧ OnlyRegs [ra 0x007 0x040, ra 0x007 0x044] s t))
  ∧ (∀ (s : State) (n : Lane) (rx : Bool),
    let l := s.lanes[n]
    let slew (l : LaneSt) : Nat := if rx then l.slewRx else l.slewTx
    let good (l : LaneSt) : Bool := if rx then l.goodRx else l.goodTx
    let hold (l : LaneSt) : Bool := if rx then l.holdRx else l.holdTx
    let mark (l : LaneSt) : Bool := if rx then l.realignRx else l.realignTx
    -- the source has been good for 1 ms since the restart: the clock slews to it
    (l.run = true → good l = false → slew l = 0 → s.sourceOk n rx = true →
      Makes (.sourceFirstGood n rx) s fun t => slew t.lanes[n] = 1 ∧ good t.lanes[n] = false
        ∧ t = s.setLane n (fun _ => t.lanes[n]))
    -- the cause of a holdover has been absent for 1 ms: the clock slews to its source and HOLD shows what is left
    ∧ (hold l = true → s.sourceOk n rx = true →
      Makes (.holdoverEnd n rx) s fun t => hold t.lanes[n] = false ∧ slew t.lanes[n] = 2
        ∧ t.flag 0x007 (clkHold n) = (if rx then l.holdTx else l.holdRx) ∧ Frame [ra 0x007 0x040] [] s t)
    -- the first slew ends: the source counts as good
    ∧ (slew l = 1 → Makes (.realign n rx) s fun t => slew t.lanes[n] = 0 ∧ good t.lanes[n] = true ∧ mark t.lanes[n] = mark l
        ∧ Frame [] [] s t)
    -- the slew after a holdover ends: the next frame is a substitute, and event 19 names lane and direction
    ∧ (slew l = 2 → Makes (.realign n rx) s fun t => slew t.lanes[n] = 0 ∧ mark t.lanes[n] = true
        ∧ t.evt.stat.getLsbD 19 = true ∧ (rx = false → Raised 19 n s t ∧ Frame [] [19] s t)
        ∧ (rx = true → ∀ h ∈ s.hostsOf n, t.flag (htxP h) htxSubst = (s.flag (htxP h) htxSubst || htxOut s h == .mission)))
    -- nothing to realign
    ∧ (slew l ≠ 1 → slew l ≠ 2 → Keeps (.realign n rx) s))

/-- DESYNC_RECENTRE, SLIP_BUFFER_RECENTRE and DESKEW_RECENTRE at the frame boundary after a fill has left its range, above and below: the buffer is at its middle (512, 64, 256), and event 20 or the deskew event of the host lane says on which side it left; a lane that does not run is left alone (R151, R158, R163). It rests on choices of the model, which are no rule of the spec: log entry 72. -/
def Obligations.BuffersRecentre : Prop :=
  ∀ (s : State) (n : Lane),
    let l := s.lanes[n]
    let mend (mid : Nat) (b : List (Option Bool)) : List (Option Bool) :=
      if mid ≤ b.length then b.drop (b.length - mid) else b ++ List.replicate (mid - b.length) none
    let centred (mid : Nat) (t : State) : Prop :=
      (∀ h ∈ s.hostsOf n, t.hosts[h].buf = mend (mid / max 1 (s.hostsOf n).length) s.hosts[h].buf) ∧ t.lanes[n].elastic = 0
        ∧ t.fget 0x007 (desyncFillF n) = 512 ∧ Raised 20 (n + 8 * bit (l.elastic == 2)) s t ∧ Frame [ra 0x007 (0x050 + 4 * n)] [20] s t
    (l.run = true → l.elastic ≠ 0 → s.free n = true → Makes (.desyncRecentre n) s (centred 512))
    ∧ (l.run = true → l.elastic ≠ 0 → s.free n = false → Makes (.slipBufferRecentre n) s (centred 64))
    ∧ (l.run = true → l.skewLeft ≠ 0 → mapEn (s.mapOf n) = true → mapRate (s.mapOf n) = 0 → Makes (.deskewRecentre n) s fun t =>
      let b := mapB (s.mapOf n)
      t.fget (hrxP b) hrxFill = 256 ∧ t.lanes[n].skew.length = 256 ∧ t.lanes[n].skewLeft = 0
        ∧ (256 ≤ l.skew.length → t.lanes[n].skew = l.skew.drop (l.skew.length - 256))
        ∧ Raised (evHost b 3) (if l.skewLeft = 1 then 1 else 2) s t ∧ Frame [ra (hrxP b) 0x064] [evHost b 3] s t)
    ∧ (l.run = false ∨ l.elastic = 0 → Keeps (.desyncRecentre n) s ∧ Keeps (.slipBufferRecentre n) s)
    ∧ (l.run = false ∨ l.skewLeft = 0 → Keeps (.deskewRecentre n) s)

/-- LATENCY_MEASUREMENT and LAT_WINDOW_PUBLISH: what enters a window and what a full window publishes (R168, R169). LAT_STAT_READ, LAT_SEL_WRITE and LAT_CTRL_WRITE: the view, READY once, and the restart of the window (R169, R174). -/
def Obligations.Latency : Prop :=
  (∀ (s : State),
    (∀ (n : Lane) (rx hostB : Bool) (fs : Nat),
      s.flag 0x00D latEn = true → s.lanes[n].run = true → mapEn (s.mapOf n) = true → latSelected n rx hostB s = true →
        Makes (.latencyMeasurement n rx hostB fs) s fun t =>
          t.time.latWin = fs :: s.time.latWin ∧ t.time.latBad = (s.time.latBad || latSpoilt n rx s)
            ∧ t.time.latFree = (s.time.latFree || s.free n) ∧ t.time.dtc = s.time.dtc ∧ t.regs = s.regs ∧ t.mem = s.mem ∧ t.evt = s.evt)
    ∧ (∀ (n : Lane) (rx hostB : Bool) (fs : Nat), s.flag 0x00D latEn = false → Keeps (.latencyMeasurement n rx hostB fs) s)
    ∧ (s.flag 0x00D latEn = true → 2 ^ s.fget 0x00D latWinF ≤ s.time.latWin.length → Makes .latWindowPublish s fun t =>
        let k := s.time.latWin.length
        let (mean, lo, hi, valid, free) := t.time.latPub
        t.time.latWin = [] ∧ t.time.latNew = true ∧ t.time.latSeq = (s.time.latSeq + 1) % 65536 ∧ free = s.time.latFree
          ∧ (s.time.latBad = true → mean = 0 ∧ lo = 0 ∧ hi = 0 ∧ valid = false)
          ∧ (s.time.latBad = false → valid = true ∧ mean = (2 * s.time.latWin.sum + k) / (2 * k)
              ∧ (∀ x ∈ s.time.latWin, lo ≤ x ∧ x ≤ hi) ∧ lo ∈ s.time.latWin ∧ hi ∈ s.time.latWin)
          ∧ t = { s with time := t.time })
    ∧ (s.time.latWin.length < 2 ^ s.fget 0x00D latWinF → Keeps .latWindowPublish s))
  ∧ (∀ (s : State),
    (Makes .latStatRead s fun t =>
      let (mean, lo, hi, valid, free) := s.time.latPub
      let on := s.flag 0x00D latEn
      t.fget 0x00D ⟨0x048, 0, 16⟩ = s.time.latSeq % 65536 ∧ t.flag 0x00D ⟨0x048, 16, 1⟩ = (on && valid)
        ∧ t.flag 0x00D ⟨0x048, 17, 1⟩ = (on && s.time.latNew) ∧ t.flag 0x00D ⟨0x048, 18, 1⟩ = free
        ∧ t.rd (ra 0x00D 0x04C) = (if on then mean % 2 ^ 32 else 0) ∧ t.rd (ra 0x00D 0x050) = (if on then lo % 2 ^ 32 else 0)
        ∧ t.rd (ra 0x00D 0x054) = (if on then hi % 2 ^ 32 else 0)
        ∧ t.time = { s.time with latNew := false }
        ∧ (∀ a, a ∉ [0x048, 0x04C, 0x050, 0x054].map (ra 0x00D) → t.rd a = s.rd a) ∧ t = { s with regs := t.regs, time := t.time })
    ∧ (∀ v : Word, Makes (.latSelWrite v) s fun t =>
      t.fget 0x00D ⟨0x044, 0, 5⟩ = v.toNat % 32 ∧ t.time.latWin = [] ∧ t.time.latNew = false ∧ t.fget 0x00D ⟨0x048, 16, 2⟩ = 0
        ∧ (∀ a, a ∉ [0x044, 0x048, 0x04C, 0x050, 0x054].map (ra 0x00D) → t.rd a = s.rd a) ∧ t = { s with regs := t.regs, time := t.time })
    ∧ (∀ v : Word, Makes (.latCtrlWrite v) s fun t =>
      t.flag 0x00D latEn = v.getLsbD 0 ∧ t.fget 0x00D latWinF = min 10 (bits v.toNat 1 4)
        ∧ (t.rd (ra 0x00D 0x040) ≠ s.rd (ra 0x00D 0x040) → t.time.latWin = [] ∧ t.time.latNew = false ∧ t.fget 0x00D ⟨0x048, 16, 2⟩ = 0)
        ∧ (t.rd (ra 0x00D 0x040) ≠ s.rd (ra 0x00D 0x040) → ∀ n : Lane, t.wmk[n] = { s.wmk[n] with lat := [] })
        ∧ (t.rd (ra 0x00D 0x040) = s.rd (ra 0x00D 0x040) → t.time = s.time ∧ t.wmk = s.wmk)
        ∧ (∀ a, a ∉ [0x040, 0x048, 0x04C, 0x050, 0x054].map (ra 0x00D) → t.rd a = s.rd a) ∧ t = { s with regs := t.regs, time := t.time, wmk := t.wmk }))

/-- DTC_LO_READ, PPS_TS_LO_READ, PPS_EDGE and PPS_TIMEOUT: the two snapshots, the captured edge, its count and its mark, PPS_OK (R170, R171). -/
def Obligations.TimeCounterAndPps : Prop :=
  ∀ (s : State),
    (Makes .dtcLoRead s fun t => t.rd (ra 0x00D 0x058) = s.time.dtc.toNat % 2 ^ 32 ∧ t.rd (ra 0x00D 0x05C) = s.time.dtc.toNat / 2 ^ 32
        ∧ OnlyRegs [ra 0x00D 0x058, ra 0x00D 0x05C] s t)
    ∧ (Makes .ppsTsLoRead s fun t => t.rd (ra 0x00D 0x064) = s.time.ppsTs.toNat % 2 ^ 32 ∧ t.rd (ra 0x00D 0x068) = s.time.ppsTs.toNat / 2 ^ 32
        ∧ OnlyRegs [ra 0x00D 0x064, ra 0x00D 0x068] s t)
    ∧ (∀ falling : Bool,
        let c := s.rd (ra 0x00D 0x060)
        (tb c 0 = true → tb c 1 = falling → Makes (.ppsEdge falling) s fun t =>
          t.time.ppsTs = s.time.dtc ∧ t.time.dtc = s.time.dtc ∧ t.fget 0x00D ppsCnt = (s.fget 0x00D ppsCnt + 1) % 65536
            ∧ (tb c 2 = true → Raised 21 (t.fget 0x00D ppsCnt % 128) s t) ∧ (s.flag 0x00D ppsOk = true → t.flag 0x00D ppsOk = true)
            ∧ (s.flag 0x00D ppsOk = false → (t.flag 0x00D ppsOk = true ↔ t.time.ppsGood = 2))
            ∧ (let gap := (s.cycles + 2 ^ 48 - s.time.ppsTs.toNat / 65536) % 2 ^ 48
               t.time.ppsGood = if s.time.ppsSeen = true ∧ 78125000 ≤ gap ∧ gap ≤ 234375000 then min 2 (s.time.ppsGood + 1) else 0)
            ∧ Frame [ra 0x00D 0x06C] (if tb c 2 then [21] else []) s t)
        ∧ (tb c 0 = false ∨ tb c 1 ≠ falling → Keeps (.ppsEdge falling) s))
    ∧ (s.flag 0x00D ppsOk = true → Makes .ppsTimeout s fun t => t.flag 0x00D ppsOk = false ∧ t.time.ppsGood = 0 ∧ Raised 22 0 s t
        ∧ Frame [ra 0x00D 0x06C] [22] s t)
    ∧ (s.flag 0x00D ppsOk = false → exec .ppsTimeout s = .next { s with time := { s.time with ppsGood := 0 } })

/-! Line receivers and framers (spec chapters 2 and 3) -/

/-- LOS_ASSERT and LOS_DEASSERT: LOS and its event, the monitors at 0, frame lock lost, and a substitute at every host lane it feeds (R99, R100, R104, R105). CDR_LOCK, CDR_UNLOCK and HUNT_COMMA_FOUND: clock recovery, its holdover, and the way into PRESYNC (R60, R79, R88, R160). -/
def Obligations.LineSignalAndClock : Prop :=
  (∀ (s : State) (n : Lane),
    (s.rxLive n = true → s.flag (lrxP n) lrxLos = false → 64 ≤ s.lanes[n].fig.below → Makes (.losAssert n) s fun t =>
      t.flag (lrxP n) lrxLos = true ∧ t.flag (lrxP n) lrxCdr = s.flag (lrxP n) lrxCdr
        ∧ t.fget (lrxP n) ⟨0x060, 0, 16⟩ = 0 ∧ t.rd (ra (lrxP n) 0x064) = 0
        ∧ t.fget (lfmP n) lfmFstate = (if s.fget (lfmP n) lfmFstate = 3 then 3 else 0)
        ∧ Raised (evLane n 17) 0 s t ∧ (s.fget (lfmP n) lfmFstate = 2 → t.evt.stat.getLsbD (evLane n 1) = true)
        ∧ (s.stopped (lfmP n) = false → ∀ h ∈ s.hostsOf n, t.flag (htxP h) htxSubst = (s.flag (htxP h) htxSubst || htxOut s h == .mission))
        ∧ Frame ([ra (lrxP n) 0x05C, ra (lrxP n) 0x060, ra (lrxP n) 0x064, ra (lfmP n) 0x048, ra 0x007 0x040] ++ calRegs n
            ++ (s.hostsOf n).map (fun (h : Host16) => ra (htxP h) 0x04C)) ([evLane n 17, evLane n 1, 18] ++ (s.hostsOf n).map (fun (h : Host16) => evHost h 4)) s t)
    ∧ (s.flag (lrxP n) lrxLos = true ∨ s.lanes[n].fig.below < 64 → Keeps (.losAssert n) s)
    ∧ (s.rxLive n = true → s.flag (lrxP n) lrxLos = true → 1024 ≤ s.lanes[n].fig.above → Makes (.losDeassert n) s fun t =>
      t.flag (lrxP n) lrxLos = false ∧ (s.coding n ≠ 1 → t.fget (lfmP n) lfmFstate = s.fget (lfmP n) lfmFstate)
        ∧ Frame ([ra (lrxP n) 0x05C, ra (lfmP n) 0x048] ++ calRegs n) [evLane n 0, evLane n 1] s t)
    ∧ (s.flag (lrxP n) lrxLos = false ∨ s.lanes[n].fig.above < 1024 → Keeps (.losDeassert n) s))
  ∧ (∀ (s : State) (n : Lane),
    (s.rxLive n = true → s.flag (lrxP n) lrxCdr = false → Makes (.cdrLock n) s fun t =>
      t.flag (lrxP n) lrxCdr = true ∧ (s.coding n ≠ 1 → t.fget (lfmP n) lfmFstate = s.fget (lfmP n) lfmFstate)
        ∧ Frame ([ra (lrxP n) 0x05C, ra (lfmP n) 0x048] ++ calRegs n) [evLane n 0, evLane n 1] s t)
    ∧ (s.flag (lrxP n) lrxCdr = true → Makes (.cdrUnlock n) s fun t =>
      t.flag (lrxP n) lrxCdr = false
        ∧ (s.lanes[n].run = true → s.free n = false → s.lanes[n].goodRx = true → t.lanes[n].holdRx = true)
        ∧ (s.coding n ≠ 1 → t.fget (lfmP n) lfmFstate = s.fget (lfmP n) lfmFstate)
        ∧ Frame ([ra (lrxP n) 0x05C, ra (lfmP n) 0x048, ra 0x007 0x040] ++ calRegs n) [evLane n 0, evLane n 1, 18] s t)
    ∧ (s.flag (lrxP n) lrxCdr = false → Keeps (.cdrUnlock n) s)
    ∧ ∀ (ahead : Nat) (samples wmk : List Int),
      (s.rxLive n = true → s.coding n = 0 → s.fget (lfmP n) lfmFstate = 0 → s.flag (lrxP n) lrxLos = false →
        Makes (.huntCommaFound n ahead samples wmk) s fun t =>
          t.fget (lfmP n) lfmFstate = 1 ∧ t.fget (lrxP n) lrxDec = 0 ∧ t.lanes[n].found = true ∧ t.lanes[n].preCnt = 1
            ∧ t.lanes[n].rxFirst = true ∧ t.lanes[n].adcPos = (s.lanes[n].adcPos + ahead) % 1024 ∧ t.lanes[n].det.mainM = []
            ∧ Frame ([ra (lfmP n) 0x048, ra (lrxP n) 0x05C, ra 0x007 (0x050 + 4 * n)] ++ (s.hostsOf n).map (fun (h : Host16) => ra (htxP h) 0x04C))
                ((s.hostsOf n).map (fun (h : Host16) => evHost h 4)) s t)
      ∧ (s.fget (lfmP n) lfmFstate ≠ 0 → Keeps (.huntCommaFound n ahead samples wmk) s))

/-- TX_FRAME: the frame count, the comma and the header of a PROT frame, the JC that the fill chooses in free mode, what a late token or a realignment leaves for the next frame, and the frame period of a lane that sends nothing (R22, R32, R42, R43, R45, R49, R56, R151). The frame clause holds where the memories that the symbols are read from hold no errors. It rests on choices of the model, which are no rule of the spec: log entry 56. -/
def Obligations.LineFrameSent : Prop :=
  ∀ (s : State) (n : Lane) (a b : List Int) (ahead : List (Fin 4)),
    let l := s.lanes[n]
    let empty := l.lateTx == some 0 || l.realignTx
    let fills := (s.hostsOf n).map (fun (h : Host16) => ra (hrxP h) 0x064)
    let skews := (s.hostsOf n).map (fun (h : Host16) => evHost h 3)
    (s.txLive n = true → mapEn (s.mapOf n) = true → Makes (.txFrame n a b ahead) s fun t =>
      t.lanes[n].mfc = (l.mfc + 1) % 256 ∧ t.lanes[n].frameNo = l.frameNo + 1 ∧ t.lanes[n].lateTx = none ∧ t.lanes[n].realignTx = false
        ∧ (t.lanes[n].subPrev = true ↔ s.coding n = 0 ∧ l.realignTx = false ∧ ∃ k, l.lateTx = some k ∧ 0 < k)
        ∧ (s.coding n = 0 → s.free n = false → t.lanes[n].txLevels.take 48 = comma ++ headerLevels (txHeader s n .nominal empty).word
            ∧ t.fget (lfmP n) lfmTxJc = 0)
        ∧ (s.coding n = 0 → s.free n = true → s.txParked n = false → l.excursion = false → empty = false →
            t.fget (lfmP n) lfmTxJc = (justChoice (justFill s n)).code)
        ∧ (s.coding n = 0 → s.txParked n = true → t.fget (lfmP n) lfmTxJc = 0 ∧ t.fget (lfmP n) lfmFill = 384)
        ∧ ((∀ a, a / 65536 = 175 → s.chkErr a = 0) → (txSrc s n = 2 → ∀ a, a / 65536 = 152 + n.val → s.chkErr a = 0) →
            Frame ([ra (lfmP n) 0x04C, ra (ltxP n) 0x080] ++ fills) ([evLane n 5, evLane n 8] ++ skews) s t))
    ∧ (l.run = true → mapEn (s.mapOf n) = true → s.txLive n = false → Makes (.txFrame n a b ahead) s fun t =>
        t.lanes[n].mfc = l.mfc ∧ t.lanes[n].lateTx = none ∧ Frame fills skews s t)
    ∧ (l.run = false ∨ mapEn (s.mapOf n) = false → Keeps (.txFrame n a b ahead) s)

/-- RX_FRAME: every frame period of an enabled lane advances its frame count and its sample position, DESYNC_FILL of a locked lane reads 512, and under LOS the host lanes that send the lane's data have its substitute with its cause (R18, R40, R74, R105, R154, R163). It rests on choices of the model, which are no rule of the spec: log entries 16 and 56. -/
def Obligations.LineFrameReceived : Prop :=
  ∀ (s : State) (n : Lane) (samples wmk : List Int) (released : Nat),
    (s.lanes[n].run = true → mapEn (s.mapOf n) = true → Makes (.rxFrame n samples wmk released) s fun t =>
      t.lanes[n].rxNo = s.lanes[n].rxNo + 1
        ∧ t.lanes[n].adcPos = (s.lanes[n].adcPos + frameSymbols (s.coding n) s.lanes[n].rxNo) % 1024
        ∧ t.lanes[n].lateRx = none ∧ t.lanes[n].realignRx = false
        ∧ (s.free n = false → t.fget 0x007 ⟨0x050 + 4 * n, 0, 10⟩ = 512)
        ∧ (s.rxLive n = true → s.stopped (lfmP n) = false → s.bad (lfmP n) = false → s.flag (lrxP n) lrxLos = true →
            ∀ h ∈ s.hostsOf n, t.flag (htxP h) htxSubst = (htxOut s h == .mission)
              ∧ (htxOut s h = .mission → s.flag (htxP h) htxSubst = false → t.fget (htxP h) htxCause = 1))
        ∧ PageFrame ([0x007, lfmP n, lrxP n] ++ (s.hostsOf n).map (fun (h : Host16) => htxP h))
            ([20, evLane n 0, evLane n 1, evLane n 2, evLane n 3, evLane n 4, evLane n 6, evLane n 7]
              ++ (s.hostsOf n).map (fun (h : Host16) => evHost h 4)) s t)
    ∧ (s.lanes[n].run = false ∨ mapEn (s.mapOf n) = false → Keeps (.rxFrame n samples wmk released) s)

/-- LFM_JUST_OVF and LATE_TOKEN: one event for an excursion or for a frame, whatever follows it; a direction that releases no token has no late one (R22, R57, R153). -/
def Obligations.BuffersAndTokensAtFault : Prop :=
  ∀ (s : State) (n : Lane),
    (∀ (above : Bool) (a b : List Int),
      (s.txLive n = true → s.free n = true → s.coding n = 0 → s.txParked n = false →
        Makes (.lfmJustOvf n above a b) s fun t => t.lanes[n].excursion = true
          ∧ (s.lanes[n].excursion = false → Raised (evLane n 5) (if above then 1 else 2) s t)
          ∧ (s.lanes[n].excursion = true → t.evt.stat.getLsbD (evLane n 5) = s.evt.stat.getLsbD (evLane n 5))
          ∧ justFill t n ≤ 768
          ∧ Frame (ra (lfmP n) 0x04C :: (s.hostsOf n).map (fun (h : Host16) => ra (hrxP h) 0x064)) [evLane n 5] s t)
      ∧ (s.txLive n = false ∨ s.free n = false ∨ s.coding n ≠ 0 ∨ s.txParked n = true → Keeps (.lfmJustOvf n above a b) s))
    ∧ (∀ (rx : Bool) (token : Nat),
        let live : Bool := if rx then s.rxLive n && !s.stopped (lfmP n) && !s.bad (lfmP n) else s.txLive n
        let late (l : LaneSt) : Option Nat := if rx then l.lateRx else l.lateTx
        (live = true → late s.lanes[n] = none → Makes (.lateToken n rx token) s fun t =>
          late t.lanes[n] = some token ∧ Raised (evLane n 11) (bit rx) s t
            ∧ (rx = true → ∀ h ∈ s.hostsOf n, t.flag (htxP h) htxSubst = (s.flag (htxP h) htxSubst || htxOut s h == .mission))
            ∧ Frame ((s.hostsOf n).map (fun (h : Host16) => ra (htxP h) 0x04C)) (evLane n 11 :: (s.hostsOf n).map (fun (h : Host16) => evHost h 4)) s t)
        ∧ (live = true → ∀ k, late s.lanes[n] = some k → Makes (.lateToken n rx token) s fun t =>
          late t.lanes[n] = some (min token k) ∧ t = s.setLane n (fun _ => t.lanes[n]))
        ∧ (live = false → Keeps (.lateToken n rx token) s))

/-- CLIP_BLOCK_END, GRADIENT_PUBLISH and GRAD_STAT_READ: the clip flag and the event of its rise; a complete set of N symbols published with its SEQ, counted as an overrun where the one before was not read, and discarded where one of the conditions of R98 fails; the view and READY once (R75, R95 to R98). -/
def Obligations.LineBlocksAndGradients : Prop :=
  ∀ (s : State) (n : Lane),
    (∀ (clipped : Nat) (rest : List Nat), s.lanes[n].fig.clipDone = clipped :: rest →
      let above := decide (s.fget (lrxP n) ⟨0x04C, 16, 16⟩ < clipped)
      Makes (.clipBlockEnd n) s fun t => t.flag (lrxP n) ⟨0x05C, 3, 1⟩ = above ∧ t.lanes[n].clipPrev = above ∧ t.lanes[n].fig.clipDone = rest
        ∧ (above = true → s.lanes[n].clipPrev = false → Raised (evLane n 16) 0 s t)
        ∧ Frame [ra (lrxP n) 0x05C] (if above && !s.lanes[n].clipPrev then [evLane n 16] else []) s t)
    ∧ (s.lanes[n].fig.clipDone = [] → Keeps (.clipBlockEnd n) s)
    ∧ (∀ (sums : List Int) (sat : Bool) (rest : List (List Int × Bool)), s.lanes[n].fig.gradDone = (sums, sat) :: rest →
        let go := s.rxLive n && !s.stopped (lfmP n) && !s.flag (lrxP n) lrxLos && s.flag (lrxP n) lrxCdr
          && tb (s.rd (ra (lrxP n) 0x058)) 5 && !s.flag (wmkP n) wmkFlareRx
        let unread := s.fget (lrxP n) ⟨0x068, 18, 8⟩
        (go = true → Makes (.gradientPublish n) s fun t =>
            t.lanes[n].gradPub = sums ∧ t.lanes[n].gradSat = sat ∧ t.lanes[n].fig.gradDone = rest
              ∧ t.lanes[n].gradSeq = (s.lanes[n].gradSeq + 1) % 65536 ∧ t.lanes[n].gradNew = true
              ∧ t.fget (lrxP n) ⟨0x068, 18, 8⟩ = (if s.lanes[n].gradNew then min (unread + 1) 255 else unread)
              ∧ Frame [ra (lrxP n) 0x068] [] s t)
        ∧ (go = false → Makes (.gradientPublish n) s fun t => t.lanes[n].fig.gradDone = [] ∧ t.lanes[n].fig.gradSum = []
              ∧ t.lanes[n].gradSeq = s.lanes[n].gradSeq ∧ t = s.setLane n (fun _ => t.lanes[n])))
    ∧ (s.lanes[n].fig.gradDone = [] → Keeps (.gradientPublish n) s)
    ∧ (Makes (.gradStatRead (BitVec.ofNat 12 (lrxP n))) s fun t =>
        t.fget (lrxP n) ⟨0x068, 0, 16⟩ = s.lanes[n].gradSeq % 65536 ∧ t.flag (lrxP n) ⟨0x068, 16, 1⟩ = s.lanes[n].gradNew
          ∧ t.flag (lrxP n) ⟨0x068, 17, 1⟩ = s.lanes[n].gradSat ∧ t.lanes[n].gradNew = false
          ∧ (∀ k < 51, t.rd (ra (lrxP n) (0x134 + 4 * k)) = enc2 24 (nth 0 s.lanes[n].gradPub k)))

/-- QUALITY_WINDOW_END: EQF and SER_PRE of a window that has ended, BER_POST of a PROT lane, the window count, the three alarms as they rise, and the codewords that the monitor could not correct; while LOS = 1 all three figures read 0 (R99 to R101, R103). It rests on choices of the model, which are no rule of the spec: log entry 23. -/
def Obligations.LineQualityWindow : Prop :=
  ∀ (s : State) (n : Lane) (q : QualWin) (rest : List QualWin),
    (s.lanes[n].fig.winDone = q :: rest →
      let e := s.rd (ra (lrxP n) 0x050)
      let a := s.rd (ra (lrxP n) 0x054)
      let los := s.flag (lrxP n) lrxLos
      let eq := if los then 0 else eqf (rxCoef s n).lvl q.sumSq q.w
      let ser := if los then 0 else decades q.disagree q.w
      let ber := if los then 0 else if s.coding n = 0 then decades (q.suspects * bits e 10 4) (2 * q.w) else 0
      let alarms : List (Nat × Bool × Nat × Nat) :=
        [(8, decide (eq ≠ 0 ∧ eq < a % 65536), evLane n 12, eq / 50), (9, decide (ser ≠ 0 ∧ ser ≤ 10 * bits a 16 8), evLane n 13, ser / 10),
          (10, decide (ber ≠ 0 ∧ ber ≤ 10 * bits a 24 8), evLane n 14, ber / 10)]
      Makes (.qualityWindowEnd n) s fun t =>
        t.lanes[n].fig.winDone = rest ∧ t.fget (lrxP n) ⟨0x060, 16, 16⟩ = (s.fget (lrxP n) ⟨0x060, 16, 16⟩ + 1) % 65536
          ∧ t.fget (lrxP n) ⟨0x060, 0, 16⟩ = eq % 65536 ∧ t.rd (ra (lrxP n) 0x064) = (ser + ber * 65536) % 2 ^ 32
          ∧ (∀ x ∈ alarms, t.flag (lrxP n) ⟨0x05C, x.1, 1⟩ = x.2.1
              ∧ (x.2.1 = true → s.flag (lrxP n) ⟨0x05C, x.1, 1⟩ = false → Raised x.2.2.1 (min 127 x.2.2.2) s t))
          ∧ (bits e 16 8 < q.uncorr → Raised (evLane n 15) (min 127 q.uncorr) s t)
          ∧ Frame [ra (lrxP n) 0x05C, ra (lrxP n) 0x060, ra (lrxP n) 0x064] [evLane n 12, evLane n 13, evLane n 14, evLane n 15] s t)
    ∧ (s.lanes[n].fig.winDone = [] → Keeps (.qualityWindowEnd n) s)

/-- The comma that every PROT frame begins with, and the CRC of a header, bit by bit as the polynomial division of R44 gives it, which is also the PEC of the same bytes (R42, R44). -/
def Obligations.CommaAndHeaderCheck : Prop :=
  comma = [3, 3, 3, 0, 0, 0, 3, 0, 0, 3, 3, 0, 3, 0, 3, 3] ++ [0, 0, 0, 3, 3, 3, 0, 3, 0, 3, 0, 0, 3, 0, 0, 3]
    ∧ (comma.filter (· == 0)).length = 16 ∧ (comma.filter (· == 3)).length = 16 ∧ 2 * comma.sum = 32 * 3
    ∧ (∀ (s : State) (n : Lane) (a b : List Int) (ahead : List (Fin 4)), s.txLive n = true → mapEn (s.mapOf n) = true → s.coding n = 0 →
      Makes (.txFrame n a b ahead) s fun t => t.lanes[n].txLevels.take 32 = comma)
    ∧ (∀ w : BitVec 32,
      let crc := (List.range 24).foldl (fun (c : BitVec 8) i => if xor c.msb (w.getLsbD (31 - i)) then (c <<< 1) ^^^ 0x07 else c <<< 1) 0
      headerOk w.toNat = decide (w.setWidth 8 = crc)
        ∧ pecOf [w.toNat / 2 ^ 24, w.toNat / 2 ^ 16 % 256, w.toNat / 2 ^ 8 % 256] = crc)
    ∧ ∀ h : Header, headerOk h.word = true

/-! Line transmitters and host lanes (spec chapters 4 and 5) -/

/-- LTX_COMPLY and COMPLY_CLEAR: the compliance bit of a line transmitter in current mode, with its event at the rise (R119, R132). OUT_MODE_SWITCH_DONE: the mode that the press was switching to is in force with AMP at code 0, and the presses that waited for it wait no more (R117, R120, R121). -/
def Obligations.CurrentMode : Prop :=
  (∀ (s : State) (n : Lane) (pinP pinN above : Bool),
    (s.fget (ltxP n) ltxOut = 2 → pinsOff s n = false → s.flag (ltxP n) ltxComply = false → Makes (.ltxComply n pinP pinN above) s fun t =>
      t.flag (ltxP n) ltxComply = true ∧ Raised (evLane n 9) (bit pinP + 2 * bit pinN + 4 * bit above) s t
        ∧ Frame [ra (ltxP n) 0x080] [evLane n 9] s t)
    ∧ (s.fget (ltxP n) ltxOut ≠ 2 ∨ s.flag (ltxP n) ltxComply = true → Keeps (.ltxComply n pinP pinN above) s)
    ∧ (Makes (.complyClear n) s fun t => t.flag (ltxP n) ltxComply = false ∧ OnlyRegs [ra (ltxP n) 0x080] s t))
  ∧ (∀ (s : State) (n : Lane),
    (∀ m, s.lanes[n].modeSwitch = some m → (∀ x ∈ s.presses, n.val ∈ x.modes → x.left ≠ []) → Makes (.outModeSwitchDone n) s fun t =>
      t.fget (ltxP n) ltxOut = m % 4 ∧ t.lanes[n].modeNamed = true ∧ t.lanes[n].modeSwitch = none
        ∧ t.inForce (ra (ltxP n) 0x048) = 0 ∧ t.flag (ltxP n) ltxComply = false ∧ (∀ x ∈ t.presses, n.val ∉ x.modes)
        ∧ t.flag (ltxP n) (rampBit (ltxP n)) = decide (min (s.rd (ra (ltxP n) 0x048)) (if m % 4 = 2 then 48 else 60) ≠ 0)
        ∧ Frame [ra (ltxP n) 0x080] [] s t)
    ∧ (s.lanes[n].modeSwitch = none → Keeps (.outModeSwitchDone n) s))

/-- WAV_DATA_ACCESS and WAV_PLAYBACK_UE: a write stores four samples at ADDR, a read shows them or 0xEEEE_EEEE, ADDR advances by 4; the first playback fetch of an uncorrectable word since a press raises event 10 (R126, R127, R300, R315). NL_DATA_ACCESS and NL_COPY_DONE: the window reaches the pending bank only, a write makes its set dirty, and the end of a copy leaves both banks of the set alike (R124, R131). It rests on choices of the model, which are no rule of the spec: log entry 10. -/
def Obligations.LaneMemories : Prop :=
  (∀ (s : State) (n : Lane),
    let w := s.fget (ltxP n) ⟨0x078, 2, 14⟩
    let a := wavMem n * 65536 + 4 * w
    (∀ v : Word, Makes (.wavDataAccess n (some v)) s fun t =>
      t.fget (ltxP n) ⟨0x078, 2, 14⟩ = (w + 1) % 2 ^ 14 ∧ t.rd (ra (ltxP n) 0x07C) = v.toNat
        ∧ (∀ i < 4, t.byte (a + i) = BitVec.ofNat 8 (v.toNat / 256 ^ i) ^^^ BitVec.ofNat 8 (if flipActs s 2 then s.rd (ra 0x00B 0x068) % 256 else 0))
        ∧ (∀ x, x < a ∨ a + 4 ≤ x → t.byte x = s.byte x)
        ∧ (∀ r, r ≠ ra (ltxP n) 0x078 → r ≠ ra (ltxP n) 0x07C → sideReg r = false → t.rd r = s.rd r) ∧ t.evt = s.evt ∧ t.lanes = s.lanes)
    ∧ (Makes (.wavDataAccess n none) s fun t =>
      t.fget (ltxP n) ⟨0x078, 2, 14⟩ = (w + 1) % 2 ^ 14
        ∧ t.rd (ra (ltxP n) 0x07C) = (if s.isUe a 4 then 0xEEEEEEEE else ofLE (s.fetchN a 4))
        ∧ (∀ x, ctrBlock x = false → t.byte x = s.byte x)
        ∧ (∀ r, r ≠ ra (ltxP n) 0x078 → r ≠ ra (ltxP n) 0x07C → r ≠ ra 0x006 0x044 → sideReg r = false → t.rd r = s.rd r))
    ∧ (∀ sample : BitVec 16, txSrc s n = 2 → s.isUe (wavMem n * 65536 + 4 * (sample.toNat / 4)) 4 = true →
      Makes (.wavPlaybackUe n sample) s fun t => t.lanes[n].wavUe = true
        ∧ (s.lanes[n].wavUe = false → t.evt.stat.getLsbD (evLane n 10) = true)
        ∧ (s.lanes[n].wavUe = true → t.evt.stat.getLsbD (evLane n 10) = s.evt.stat.getLsbD (evLane n 10))
        ∧ Frame [] [evLane n 10] s t)
    ∧ (∀ sample : BitVec 16, txSrc s n ≠ 2 → Keeps (.wavPlaybackUe n sample) s))
  ∧ (∀ (s : State) (n : Lane),
    let w := s.rd (ra (ltxP n) 0x070)
    let e := bits w 0 6
    let band := min 4 (bits w 6 3)
    let a := 175 * 65536 + nlOff n band (1 - nlLive s n band) e
    (∀ v : Word, tb s.lanes[n].nlCopy band = false → Makes (.nlDataAccess n (some v)) s fun t =>
      t.byte a = BitVec.ofNat 8 v.toNat ^^^ BitVec.ofNat 8 (if flipActs s 6 then s.rd (ra 0x00B 0x068) % 256 else 0)
        ∧ (∀ x, x < eccBase a ∨ eccBase a + 4 ≤ x → t.byte x = s.byte x)
        ∧ t.fget (ltxP n) ltxDirty = s.fget (ltxP n) ltxDirty ||| 2 ^ band
        ∧ bits (t.rd (ra (ltxP n) 0x070)) 0 6 = (if tb w 9 then (e + 1) % 64 else e)
        ∧ (∀ r, r ∉ [0x070, 0x074, 0x080].map (ra (ltxP n)) → sideReg r = false → t.rd r = s.rd r) ∧ t.lanes = s.lanes)
    ∧ (tb s.lanes[n].nlCopy band = false → Makes (.nlDataAccess n none) s fun t =>
        t.rd (ra (ltxP n) 0x074) = (if s.isUe (eccBase a) 4 then 0xEEEEEEEE else (s.fetch a).toNat)
        ∧ bits (t.rd (ra (ltxP n) 0x070)) 0 6 = (if tb w 9 then (e + 1) % 64 else e) ∧ t.lanes = s.lanes)
    ∧ (∀ write : Option Word, tb s.lanes[n].nlCopy band = true → Makes (.nlDataAccess n write) s fun t =>
        t.lanes[n].nlCopy = 0 ∧ t.flag (ltxP n) ltxCopy = false)
    ∧ (Makes (.nlCopyDone n) s fun t => t.lanes[n].nlCopy = 0 ∧ t.flag (ltxP n) ltxCopy = false
        ∧ t.lanes[n].nlBank = s.lanes[n].nlBank
        ∧ (flipActs s 6 = false → ∀ b < 5, tb s.lanes[n].nlCopy b = true → ∀ k < 64,
            t.byte (175 * 65536 + nlOff n b (1 - nlLive s n b) k) = s.fetch (175 * 65536 + nlOff n b (nlLive s n b) k))
        ∧ (∀ x, x / 65536 ≠ 175 → t.byte x = s.byte x)))

/-- HRX_LOS_ASSERT, HRX_LOS_DEASSERT, HRX_CDR_LOCK and HRX_CDR_LOL: the two bits of a host receiver with their events, and the holdover of the line lane it clocks; CDR_LOCK needs REFCLK_HOST (R140, R156, R159, R160). HTX_PLL_LOCK and HTX_PLL_LOL: the PLL bit, its event, and no mission output without it. PRBS_CHECKER_LOCK, HQF_WINDOW_END and HRX_GRADIENT_PUBLISH: the checker lock, HQF of the window with its alarm as it rises, and a set published with its SEQ (R138, R139, R141, R486). -/
def Obligations.HostLanes : Prop :=
  (∀ (s : State) (h : Host16),
    (s.hrxLive h = true → s.flag (hrxP h) hrxLos = false → 64 ≤ s.hosts[h].fig.below → Makes (.hrxLosAssert h) s fun t =>
      t.flag (hrxP h) hrxLos = true ∧ t.fget (hrxP h) ⟨0x058, 0, 16⟩ = 0 ∧ Raised (evHost h 0) 0 s t
        ∧ Frame [ra (hrxP h) 0x054, ra (hrxP h) 0x058, ra 0x007 0x040] [evHost h 0, 18] s t)
    ∧ (s.flag (hrxP h) hrxLos = true ∨ s.hosts[h].fig.below < 64 → Keeps (.hrxLosAssert h) s)
    ∧ (s.hrxLive h = true → 1024 ≤ s.hosts[h].fig.above → Makes (.hrxLosDeassert h) s fun t =>
        t.flag (hrxP h) hrxLos = false ∧ OnlyRegs [ra (hrxP h) 0x054] s t)
    ∧ (s.hosts[h].fig.above < 1024 → Keeps (.hrxLosDeassert h) s)
    ∧ (s.hrxLive h = true → s.flag 0x007 clkRefh = true → Makes (.hrxCdrLock h) s fun t =>
        t.flag (hrxP h) hrxCdr = true ∧ OnlyRegs [ra (hrxP h) 0x054] s t)
    ∧ (s.flag 0x007 clkRefh = false → Keeps (.hrxCdrLock h) s)
    ∧ (s.flag (hrxP h) hrxCdr = true → Makes (.hrxCdrLol h) s fun t =>
      t.flag (hrxP h) hrxCdr = false ∧ Raised (evHost h 1) 0 s t
        ∧ (∀ n : Lane, s.laneOf h = some n → mapA (s.mapOf n) = h → s.lanes[n].run = true → s.free n = false → s.lanes[n].goodTx = true →
            t.lanes[n].holdTx = true)
        ∧ Frame [ra (hrxP h) 0x054, ra 0x007 0x040] [evHost h 1, 18] s t)
    ∧ (s.flag (hrxP h) hrxCdr = false → Keeps (.hrxCdrLol h) s)
    ∧ (s.hrxLive h = false → Keeps (.hrxLosAssert h) s ∧ Keeps (.hrxLosDeassert h) s ∧ Keeps (.hrxCdrLock h) s))
  ∧ (∀ (s : State) (h : Host16),
    ((s.laneOf h).isSome = true → s.pwr.hostOn.getLsbD (h.val / 4) = true → Makes (.htxPllLock h) s fun t =>
      t.flag (htxP h) htxPll = true ∧ OnlyRegs [ra (htxP h) 0x04C] s t)
    ∧ (s.laneOf h = none → Keeps (.htxPllLock h) s)
    ∧ (s.flag (htxP h) htxPll = true → Makes (.htxPllLol h) s fun t =>
      t.flag (htxP h) htxPll = false ∧ Raised (evHost h 5) 0 s t ∧ htxOut t h ≠ .mission ∧ Frame [ra (htxP h) 0x04C] [evHost h 5] s t)
    ∧ (s.flag (htxP h) htxPll = false → Keeps (.htxPllLol h) s)
    ∧ (s.hrxLive h = true → tb (s.rd (ra (hrxP h) 0x040)) 7 = true → Makes (.prbsCheckerLock h) s fun t =>
        t.flag (hrxP h) hrxChk = s.hosts[h].chkPos.isSome ∧ OnlyRegs [ra (hrxP h) 0x054] s t)
    ∧ (s.hrxLive h = false ∨ tb (s.rd (ra (hrxP h) 0x040)) 7 = false → Keeps (.prbsCheckerLock h) s)
    ∧ (∀ (w : QualWin) (rest : List QualWin), s.hosts[h].fig.winDone = w :: rest →
        let q := if s.flag (hrxP h) hrxLos then 0 else eqf (hrxCoef s h).lvl w.sumSq w.w
        let low := decide (q ≠ 0 ∧ q < s.fget (hrxP h) ⟨0x050, 16, 16⟩)
        Makes (.hqfWindowEnd h) s fun t =>
          t.fget (hrxP h) ⟨0x058, 0, 16⟩ = q % 65536 ∧ t.fget (hrxP h) ⟨0x058, 16, 16⟩ = (s.fget (hrxP h) ⟨0x058, 16, 16⟩ + 1) % 65536
            ∧ t.flag (hrxP h) ⟨0x054, 3, 1⟩ = low ∧ t.hosts[h].fig.winDone = rest
            ∧ (low = true → s.flag (hrxP h) ⟨0x054, 3, 1⟩ = false → Raised (evHost h 2) (min 127 (q / 50)) s t)
            ∧ Frame [ra (hrxP h) 0x054, ra (hrxP h) 0x058] [evHost h 2] s t)
    ∧ (s.hosts[h].fig.winDone = [] → Keeps (.hqfWindowEnd h) s)
    ∧ (∀ (sums : List Int) (sat : Bool) (rest : List (List Int × Bool)), s.hosts[h].fig.gradDone = (sums, sat) :: rest →
        let go := s.hrxLive h && !s.stopped (hrxP h) && !s.flag (hrxP h) hrxLos && s.flag (hrxP h) hrxCdr && tb (s.rd (ra (hrxP h) 0x05C)) 5
        let unread := s.fget (hrxP h) ⟨0x060, 18, 8⟩
        (go = true → Makes (.hrxGradientPublish h) s fun t =>
            t.hosts[h].gradPub = sums ∧ t.hosts[h].gradSat = sat ∧ t.hosts[h].gradNew = true ∧ t.hosts[h].fig.gradDone = rest
              ∧ t.hosts[h].gradSeq = (s.hosts[h].gradSeq + 1) % 65536
              ∧ t.fget (hrxP h) ⟨0x060, 18, 8⟩ = (if s.hosts[h].gradNew then min (unread + 1) 255 else unread)
              ∧ Frame [ra (hrxP h) 0x060] [] s t)
        ∧ (go = false → Makes (.hrxGradientPublish h) s fun t => t.hosts[h].fig.gradDone = [] ∧ t.hosts[h].fig.gradSum = []
              ∧ t.hosts[h].gradSeq = s.hosts[h].gradSeq ∧ t = s.setHost h (fun _ => t.hosts[h])))
    ∧ (s.hosts[h].fig.gradDone = [] → Keeps (.hrxGradientPublish h) s))

/-! Park, press and epoch (spec chapters 3, 4 and 15) -/

/-- PARK, PARKED, UNPARK and UNPARK_RESTART: PG_CTRL.PARK holds what was written, and PG_STATE.PARK takes the steps of R374; a receiver or framer that reads PARKED is idle. -/
def Obligations.ParkAndUnpark : Prop :=
  ∀ (s : State) (page : BitVec 12),
    let p := page.toNat
    let st := s.fget p pgPark
    ((pageOf p).isSome = true → s.ist.kind ≠ 1 → Makes (.park page) s fun t =>
      t.fget p pgCtrlPark = 1
        ∧ t.fget p pgPark = (if st = 0 then (if (parkLane s p).isSome ∨ (p = 0x008 ∧ inPress s p = true) then 1 else 2) else if st = 3 then 2 else st))
    ∧ ((pageOf p).isSome = true → s.ist.kind ≠ 1 → Makes (.unpark page) s fun t =>
      t.fget p pgCtrlPark = 0
        ∧ t.fget p pgPark = (if st = 1 then 0 else if st = 2 then (if (parkLane s p).isSome ∨ inPress s p = true ∨ mapHeld s p = true then 3 else 0) else st))
    ∧ ((pageOf p).isSome = true → st = 1 → Makes (.parked page) s fun t => t.fget p pgPark = 2
        ∧ (∀ n : Lane, p = lrxP n ∨ p = lfmP n → t.fget (lfmP n) lfmFstate = 3))
    ∧ (st ≠ 1 → Keeps (.parked page) s)
    ∧ ((pageOf p).isSome = true → st = 3 → inPress s p = false → mapHeld s p = false → Makes (.unparkRestart page) s fun t => t.fget p pgPark = 0
        ∧ (∀ n : Lane, p = lrxP n → s.running n = true → s.coding n ≠ 1 → t.fget (lfmP n) lfmFstate = if s.stopped (lfmP n) then 3 else 0))
    ∧ (st ≠ 3 ∨ inPress s p = true ∨ mapHeld s p = true → Keeps (.unparkRestart page) s)
    ∧ (∀ n : Lane, p = lrxP n ∨ p = ltxP n ∨ p = lfmP n → s.ist.kind = 1 → s.ist.unit = n.val →
        (Makes (.park page) s fun t => t.ist.kind = 0 ∧ t.fget bistP istResult = 4 ∧ t.evt.stat.getLsbD 26 = true)
        ∧ (Makes (.unpark page) s fun t => t.ist.kind = 0 ∧ t.fget bistP istResult = 4 ∧ t.evt.stat.getLsbD 26 = true))
    ∧ (pageOf p = none → Keeps (.park page) s ∧ Keeps (.unpark page) s)

/-- PRESS and PRESS_GO: a page already in a press fails with cause 8, a page that is not parked with cause 1, an empty group with cause 11; a valid press of one page of a running lane waits for that lane's boundary (R375, R376, R485). It rests on choices of the model, which are no rule of the spec: log entry 21. -/
def Obligations.PressAnswers : Prop :=
  ∀ (s : State) (page : BitVec 12),
    let p := page.toNat
    ((pageOf p).isSome = true → inPress s p = true → Makes (.press page) s fun t =>
      Raised 1 8 s t ∧ t.rd (ra p 0x024) = p + 8 * 2 ^ 22 + 2 ^ 30 ∧ t.presses = s.presses ∧ Frame [ra p 0x024] [1] s t)
    ∧ ((pageOf p).isSome = true → inPress s p = false → s.fget 0x001 pwrState = 0 → pagePower s p < 2 → s.parked p = false →
      Makes (.press page) s fun t =>
        Raised 1 1 s t ∧ bits (t.rd (ra p 0x020)) 0 8 = 2 + 4 * 1 ∧ t.rd (ra p 0x024) = p + 0x004 * 2 ^ 12 + 2 ^ 22 + 2 ^ 30
          ∧ t.presses = s.presses ∧ Frame [ra p 0x020, ra p 0x024] [1] s t)
    ∧ (∀ (n : Lane) (rx : Bool), s.presses = [] → pressCheck s [p] = none → paceFail s [p] = none → p ≠ 0x008 →
        placeOf s [p] p = some (n, rx) → s.running n = true → s.ist.kind ≠ 1 → Makes (.press page) s fun t =>
          t.fget p pgPress = 2 ∧ bits (t.rd (ra p 0x020)) 0 2 = 3
            ∧ ∃ x : PressRun, t.presses = [x] ∧ x.pages = [p] ∧ x.left = [(n.val, rx, [p])] ∧ x.group = false)
    ∧ (groupPages s = [] → Makes .pressGo s fun t => Raised 1 11 s t ∧ bits (t.rd (ra 0x000 0x04C)) 0 8 = 2 + 4 * 11
        ∧ t.presses = s.presses ∧ Frame [ra 0x000 0x024, ra 0x000 0x04C] [1] s t)
    ∧ (∀ (n : Lane) (rx : Bool), groupPages s = [p] → s.presses = [] → pressCheck s [p] = none → paceFail s [p] = none → p ≠ 0x008 →
        placeOf s [p] p = some (n, rx) → s.running n = true → s.ist.kind ≠ 1 → Makes .pressGo s fun t =>
          t.fget p pgPress = 2 ∧ bits (t.rd (ra 0x000 0x04C)) 0 2 = 3
            ∧ ∃ x : PressRun, t.presses = [x] ∧ x.pages = [p] ∧ x.left = [(n.val, rx, [p])] ∧ x.group = true)

/-- PRESS_APPLY and DISCARD: at its boundary a pressed host receiver takes its staged bits and the press is done with event 0; DISCARD gives the twins the live values, but not while the page is in a press (R373, R375, R377, R485). -/
def Obligations.StagedValues : Prop :=
  ∀ (s : State),
    (∀ (n : Lane) (dir rx : Bool) (h : Host16) (x : PressRun), rx ∈ boundaryOf s n dir →
      s.presses = [x] → x = { group := false, pages := [hrxP h], left := [(n.val, rx, [hrxP h])], maps := [], modes := [] } →
        s.twinHeld = [] → s.fget (hrxP h) pgPark < 3 → s.fget 0x001 pwrState ≠ 1 → Makes (.pressApply n dir) s fun t =>
          t.presses = [] ∧ t.fget (hrxP h) pgPress = 0 ∧ Raised 0 (hrxP h) s t
            ∧ t.fget (hrxP h) ⟨0x040, 0, 9⟩ = bits (s.rd (ra (hrxP h) 0x040 + twin)) 0 9
            ∧ bits (t.rd (ra (hrxP h) 0x020)) 0 2 = 1
            ∧ bits (t.rd (ra (hrxP h) 0x020)) 8 8 = (bits (s.rd (ra (hrxP h) 0x020)) 8 8 + 1) % 256
            ∧ Frame [ra (hrxP h) 0x040, ra (hrxP h) 0x054, ra (hrxP h) 0x020, ra (hrxP h) 0x004] [0] s t)
    ∧ (∀ (n : Lane) (rx : Bool), s.presses = [] ∨ boundaryOf s n rx = [] → Keeps (.pressApply n rx) s)
    ∧ (∀ page : BitVec 12, inPress s page.toNat = false → Makes (.discard page) s fun t =>
        (∀ x ∈ pageRws page.toNat, t.rd (x.1 + twin) = s.rd x.1 &&& x.2 ∧ t.rd x.1 = s.rd x.1)
          ∧ OnlyRegs ((pageRws page.toNat).map (fun x => x.1 + twin)) s t)
    ∧ (∀ page : BitVec 12, inPress s page.toNat = true → Keeps (.discard page) s)

/-- EPOCH, EPOCH_APPLY and RAMP_STEP: a strobe captures every epoch-class value of the masked lanes and changes none in force; at the boundary of each direction every captured value takes force, but for the bits that FREEZE holds back, and a ramped one takes its first step toward the value captured; at a later boundary every ramp of the direction moves one code and shows whether it goes on; until the receiver has a boundary of its own, the transmit boundary is that of both (R73, R92, R94, R123, R378, R484). -/
def Obligations.EpochsAndRamps : Prop :=
  ∀ (s : State),
    let flagOf (l : LaneSt) (rx : Bool) : Bool := if rx then l.epochRx else l.epochTx
    (∀ mask : Byte, Makes (.epoch mask) s fun t =>
      (∀ n : Lane, tb mask.toNat n = true → t.lanes[n].epochTx = true ∧ t.lanes[n].epochRx = true
          ∧ ∀ x ∈ laneRwe s n true ++ laneRwe s n false, kget none t.held x.1 = some (kget (resetWord x.1) s.regs x.1))
        ∧ (∀ n : Lane, tb mask.toNat n = false → t.lanes[n] = s.lanes[n])
        ∧ t = { s with lanes := t.lanes, held := t.held })
    ∧ (∀ (n : Lane) (dir rx : Bool), rx ∈ boundaryOf s n dir → s.running n = true → flagOf s.lanes[n] rx = true →
        Makes (.epochApply n dir) s fun t => flagOf t.lanes[n] rx = false
          ∧ ∀ x ∈ laneRwe s n rx, ∀ v : Word, kget none s.held x.1 = some v →
              let m := x.2 &&& (0xFFFFFFFF ^^^ frozenBits s x.1 x.2)
              kget none t.held x.1 = none
                ∧ (ramped x.1 = false → t.inForce x.1 = (s.inForce x.1 &&& (0xFFFFFFFF ^^^ m)) ||| (v.toNat &&& m))
                ∧ (ramped x.1 = true → m = 0 → t.inForce x.1 = s.inForce x.1)
                ∧ (ramped x.1 = true → m ≠ 0 → t.inForce x.1 = rampWord x.1 (s.inForce x.1) (rampTo t x.1)
                    ∧ kget (resetWord x.1) t.target x.1 = BitVec.ofNat 32 (v.toNat &&& x.2)))
    ∧ (∀ n : Lane, s.lanes[n].rxFirst = true → s.running n = true → s.lanes[n].epochRx = true → Makes (.epochApply n true) s fun t =>
        t.lanes[n].epochTx = s.lanes[n].epochTx ∧ t.evt = s.evt ∧ t.mem = s.mem ∧ t.seq = s.seq)
    ∧ (∀ (n : Lane) (dir : Bool), s.running n = false ∨ (∀ rx ∈ boundaryOf s n dir, flagOf s.lanes[n] rx = false) → Keeps (.epochApply n dir) s)
    ∧ (∀ (n : Lane) (dir rx : Bool), rx ∈ boundaryOf s n dir → s.running n = true → (s.hostsOf n).Nodup → Makes (.rampStep n dir) s fun t =>
        (∀ x ∈ laneRwe s n rx, ramped x.1 = true → t.inForce x.1 = rampWord x.1 (s.inForce x.1) (rampTo s x.1)
          ∧ t.flag (x.1 / 1024) (rampBit (x.1 / 1024)) = (rampWord x.1 (s.inForce x.1) (rampTo s x.1) != rampTo s x.1))
        ∧ t.evt = s.evt ∧ t.mem = s.mem)
    ∧ (∀ n : Lane, s.running n = true → s.lanes[n].rxFirst = true → Makes (.rampStep n true) s fun t =>
        let a := ra (lrxP n) 0x044
        let tgt := kget (resetWord a) s.target a
        bits (t.inForce a) 0 5 = (oneStep (bits (s.inForce a) 0 5 : Nat) (bits tgt.toNat 0 5 : Nat)).toNat
          ∧ bits (t.inForce a) 8 6 = (oneStep (bits (s.inForce a) 8 6 : Nat) (bits tgt.toNat 8 6 : Nat)).toNat
          ∧ sx 6 (bits (t.inForce a) 16 6) = oneStep (sx 6 (bits (s.inForce a) 16 6)) (sx 6 (bits tgt.toNat 16 6)))
    ∧ (∀ (n : Lane) (dir : Bool), s.running n = false → Keeps (.rampStep n dir) s)

/-! Power, pace and VCORE (spec chapter 13) -/

/-- LANE_DUSK_ENTRY: the lane's power states read dusk, its framer idles, its fills read their middles and its margins 0x7FFF, its subdomain of D_CORE is off, with event 19 of the lane (R56, R173, R321, R324). SIGNAL_DETECT_WAKE, DUSK_EXIT and LANE_WAKING_DONE: a lane in dusk goes to Waking with its cause, its demand is checked, and where that passes its domains are powered; a Waking lane that has been powered leaves it with event 34 only where the demand check passes, and VCORE is raised for one where it does not (R322, R325, R340). It rests on choices of the model, which are no rule of the spec: log entries 49 and 51. -/
def Obligations.Dusk : Prop :=
  (∀ (s : State) (n : Lane),
    (s.running n = true → s.flag (lrxP n) lrxLos = true → s.fget pwrP idleT ≠ 0 → s.cal[n].fg = false → s.fget pwrP pwrState = 0 →
      s.fget (lrxP n) pgPark = 0 → s.fget (ltxP n) pgPark = 0 → s.fget (lfmP n) pgPark = 0 → s.presses = [] →
      Makes (.laneDuskEntry n) s fun t =>
        t.flag pwrP (pwrDusk n) = true ∧ t.running n = false
          ∧ (∀ p ∈ [lrxP n, ltxP n, lfmP n], t.fget p ⟨0x004, 0, 3⟩ = 1)
          ∧ t.fget (lfmP n) lfmFstate = 3 ∧ t.fget (lrxP n) lrxDec = 3 ∧ t.rd (paceReg n) = 0x7FFF7FFF
          ∧ t.flag (wmkP n) wmkLockF = false ∧ t.wmk[n].sending = none ∧ Raised (evLane n 19) 0 s t
          ∧ t.fget (lfmP n) lfmFill = 384 ∧ t.fget 0x007 (desyncFillF n) = 512 ∧ t.pwr.subOn.getLsbD n = false
          ∧ PageFrame [pwrP, 0x007, lrxP n, ltxP n, lfmP n, wmkP n, bistP] [evLane n 19] s t)
    ∧ (s.flag (lrxP n) lrxLos = false ∨ s.fget pwrP idleT = 0 ∨ s.running n = false → Keeps (.laneDuskEntry n) s))
  ∧ (∀ (s : State),
    (∀ n : Lane, s.flag pwrP (pwrDusk n) = true → Makes (.signalDetectWake n) s fun t =>
      t.flag pwrP (pwrDusk n) = false ∧ t.flag pwrP (pwrWaking n) = true ∧ t.lanes[n].wakeCause = 0
        ∧ (∀ p ∈ [lrxP n, ltxP n, lfmP n], t.fget p ⟨0x004, 0, 3⟩ = 0)
        ∧ (∀ j, demandFail s (withLane s n) = some j → Raised 36 j s t ∧ t.flag pwrP vcoreRaise = true)
        ∧ (demandFail s (withLane s n) = none → s.pwr.subOn.getLsbD n = false → 2 + n.val ∉ s.pwr.faults → 16 + n.val ∉ s.pwr.faults →
            2 + n.val ∈ t.pwr.waitGood ∧ 16 + n.val ∈ t.pwr.waitGood)
        ∧ Frame ([0x058, 0x060, 0x064].map (ra pwrP) ++ [lrxP n, ltxP n, lfmP n].map (fun p => ra p 0x004)) [36, 38] s t)
    ∧ (∀ n : Lane, s.flag pwrP (pwrDusk n) = false → Keeps (.signalDetectWake n) s)
    ∧ (∀ mask : Byte, Makes (.duskExit mask) s fun t => ∀ n : Lane,
        t.flag pwrP (pwrDusk n) = (s.flag pwrP (pwrDusk n) && !tb mask.toNat n)
          ∧ t.flag pwrP (pwrWaking n) = (s.flag pwrP (pwrWaking n) || (s.flag pwrP (pwrDusk n) && tb mask.toNat n))
          ∧ t.lanes[n].wakeCause = (if s.flag pwrP (pwrDusk n) = true ∧ tb mask.toNat n = true then 3 else s.lanes[n].wakeCause))
    ∧ (∀ n : Lane, s.flag pwrP (pwrWaking n) = true →
        let faulted := 2 + n.val ∈ s.pwr.faults ∨ 16 + n.val ∈ s.pwr.faults
        let powered := s.pwr.subOn.getLsbD n = true ∨ 16 + n.val ∈ s.pwr.waitGood ∨ 2 + n.val ∈ s.pwr.waitGood
        (demandFail s (withLane s n) = none → ¬faulted → powered → Makes (.laneWakingDone n) s fun t =>
          t.flag pwrP (pwrDusk n) = false ∧ t.flag pwrP (pwrWaking n) = false ∧ t.lanes[n].run = true ∧ t.pwr.subOn.getLsbD n = true
            ∧ (s.lanes[n].wakeCause ≠ activation → t.cal[n].fastLeft = 65 ∧ t.evt.stat.getLsbD 34 = true))
        ∧ (demandFail s (withLane s n) = none → ¬faulted → ¬powered → Makes (.laneWakingDone n) s fun t =>
          t = { s with pwr := { s.pwr with waitGood := s.pwr.waitGood ++ [16 + n.val, 2 + n.val] } })
        ∧ (demandFail s (withLane s n) = none → faulted → Keeps (.laneWakingDone n) s)
        ∧ (∀ j, demandFail s (withLane s n) = some j → Makes (.laneWakingDone n) s fun t =>
          t.flag pwrP (pwrWaking n) = true ∧ t.lanes = s.lanes ∧ t.flag pwrP vcoreRaise = true ∧ Frame ([0x060, 0x064].map (ra pwrP)) [38] s t))
    ∧ (∀ n : Lane, s.flag pwrP (pwrWaking n) = false → Keeps (.laneWakingDone n) s))

/-- LP_REQ_WRITE, LPMODE_CHANGE and DEVICE_IDLE_EXPIRY: an Active device begins its entry with its cause; with no press applying every lane stops, the pages of line and host lanes read PARKED, every laser is FORCED_OFF and the engines drain (R327, R328). It rests on choices of the model, which are no rule of the spec: log entry 24. -/
def Obligations.LowPowerRequests : Prop :=
  ∀ (s : State),
    let active := s.fget pwrP pwrState = 0 ∧ s.boot.ready = true ∧ s.pwr.coreOn = true ∧ s.shut = false
    let begun (cause : Nat) (t : State) : Prop := t.fget pwrP pwrState = 1 ∧ t.pwr.lpCause = cause
      ∧ (s.presses = [] → s.seq.drain ≠ 1 → t.seq.drain = 1 ∧ (∀ p ∈ dataPages, t.fget p pgPark = 2)
        ∧ ∀ n : Lane, t.lanes[n].run = false ∧ t.fget lasP (lbState n) = 5)
    let honoured := (cmisByte s 26).getLsbD 6
    (active → Makes (.lpReqWrite true) s fun t => t.flag pwrP lpReqF = true ∧ begun 2 t)
    ∧ (¬ active → Makes (.lpReqWrite true) s fun t => t.flag pwrP lpReqF = true ∧ OnlyRegs [ra pwrP 0x040] s t)
    ∧ (s.fget pwrP pwrState = 0 → Makes (.lpReqWrite false) s fun t => t.flag pwrP lpReqF = false ∧ OnlyRegs [ra pwrP 0x040] s t)
    ∧ (s.fget pwrP pwrState = 2 → lpPin s = false → Makes (.lpReqWrite false) s fun t => t.flag pwrP lpReqF = false ∧ t.fget pwrP pwrState = 3
        ∧ t.fget pwrP ⟨0x048, 0, 3⟩ = 2)
    ∧ (active → honoured = true → Makes (.lpmodeChange true) s fun t => t.mgmt.lpmode = true ∧ t.flag pwrP ⟨0x058, 2, 1⟩ = true ∧ begun 1 t)
    ∧ (honoured = false ∨ ¬ active → Makes (.lpmodeChange true) s fun t =>
        t.mgmt.lpmode = true ∧ t.flag pwrP ⟨0x058, 2, 1⟩ = true ∧ OnlyRegs [ra pwrP 0x058] { s with mgmt := t.mgmt } t)
    ∧ (s.fget pwrP pwrState = 2 → s.flag pwrP lpReqF = false → Makes (.lpmodeChange false) s fun t =>
        t.mgmt.lpmode = false ∧ t.flag pwrP ⟨0x058, 2, 1⟩ = false ∧ t.fget pwrP pwrState = 3 ∧ t.fget pwrP ⟨0x048, 0, 3⟩ = 1)
    ∧ (active → s.flag pwrP ⟨0x040, 0, 1⟩ = true → (∃ n : Lane, mapEn (s.mapOf n) = true) →
        (∀ n : Lane, mapEn (s.mapOf n) = true → s.flag pwrP (pwrDusk n) = true) → Makes .deviceIdleExpiry s (begun 3))
    ∧ (s.flag pwrP ⟨0x040, 0, 1⟩ = false → Keeps .deviceIdleExpiry s)

/-- LP_ENTRY_COMPLETE: D_CORE and the host groups lose power, the VCORE code 0 is to be written whole, LP_CNT counts, every retained macro carries both seals where no flip mask is set, and event 32 is raised; with a wake source kept during the entry, and nothing that holds the device, it wakes at once (R32, R315, R318, R327, R328, R331). WAKE_DONE: every domain waited for is on, the device is Active, dispatch resumes, the pages that low power parked run again, and event 33 is raised; while D_CORE has failed, or before a wake, nothing happens (R330). -/
def Obligations.LowPowerAndWake : Prop :=
  (∀ (s : State),
    (s.fget pwrP pwrState = 1 → s.seq.drain = 1 → Makes .lpEntryComplete s fun t =>
      t.pwr.coreOn = false ∧ t.pwr.hostOn = 0 ∧ t.pwr.subOn = 0 ∧ t.nv.wait = [] ∧ t.evt.stat.getLsbD 32 = true
        ∧ t.fget pwrP lpCnt = (s.fget pwrP lpCnt + 1) % 65536
        ∧ (s.rd flipMask = 0 → ∀ m < 176, retained m = true → sealOk false m t = true ∧ sealOk true m t = true)
        ∧ (∀ n : Lane, t.pwr.sdKept.getLsbD n = sdEnabled s n ∧ t.pwr.laneOn.getLsbD n = (s.pwr.laneOn.getLsbD n && sdEnabled s n)
            ∧ t.cal[n].corr = if sdEnabled s n then s.cal[n].corr else [])
        ∧ (∀ h : Host16, t.flag (hrxP h) hrxLos = true ∧ t.flag (hrxP h) hrxCdr = false ∧ t.flag (htxP h) htxPll = false)
        ∧ (s.pwr.wakePend = none ∨ lpHeld s = true → t.fget pwrP pwrState = 2 ∧ t.fget pwrP vcoreReq = 0 ∧ t.pwr.avsWhole = some 0
            ∧ t.flag pwrP vcoreConf = false ∧ t.pwr.waitGood = [] ∧ t.pwr.wakePend = none)
        ∧ (∀ c n, s.pwr.wakePend = some (c, n) → lpHeld s = false → t.fget pwrP pwrState = 3 ∧ t.fget pwrP vcoreReq = 30 ∧ t.pwr.avsWhole = some 30))
    ∧ (s.fget pwrP pwrState ≠ 1 ∨ s.seq.drain ≠ 1 → Keeps .lpEntryComplete s))
  ∧ (∀ (s : State) (upsets : List (Nat × BitVec 13)),
    (s.fget pwrP pwrState = 3 → 1 ∉ s.pwr.faults → lpHeld s = false → Makes (.wakeDone upsets) s fun t =>
      t.fget pwrP pwrState = 0 ∧ t.seq.drain = 0 ∧ t.pwr.retn = [] ∧ t.pwr.sdKept = 0 ∧ t.evt.stat.getLsbD 33 = true
        ∧ (∀ p ∈ dataPages, s.fget p pgPark = 2 → s.flag p pgCtrlPark = false → t.fget p pgPark = 0)
        ∧ (1 ∈ s.pwr.waitGood → t.pwr.coreOn = true) ∧ (∀ n < 8, 2 + n ∈ s.pwr.waitGood → t.pwr.laneOn.getLsbD n = true))
    ∧ (s.fget pwrP pwrState ≠ 3 ∨ 1 ∈ s.pwr.faults → Keeps (.wakeDone upsets) s))

/-- PWR_WAKE_WRITE, WAKE_TIMER_EXPIRY and LP_SIGNAL_DETECT wake the device from low power where enabled and where R327 does not hold it, with WAKE_SRC, VCORE code 30 written whole, and the domains powered; during the entry the source of lowest code is kept (R329, R330). -/
def Obligations.WakeSources : Prop :=
  ∀ (s : State),
    let en := s.rd (ra pwrP 0x044)
    let woken (code lane : Nat) (t : State) : Prop :=
      t.fget pwrP pwrState = 3 ∧ t.fget pwrP ⟨0x048, 0, 3⟩ = code ∧ t.fget pwrP ⟨0x048, 4, 3⟩ = lane ∧ t.fget pwrP vcoreReq = 30
        ∧ t.pwr.avsWhole = some 30 ∧ 1 ∈ t.pwr.waitGood
        ∧ (∀ d, (2 ≤ d ∧ d < 10) ∨ (16 ≤ d ∧ d < 29) → d ∉ s.pwr.faults → d ∈ t.pwr.waitGood)
        ∧ (∀ k < 4, groupUsed s k = true → 10 + k ∉ s.pwr.faults → 10 + k ∈ t.pwr.waitGood)
        ∧ OnlyRegs ([0x048, 0x058, 0x060, 0x064].map (ra pwrP)) { s with mgmt := t.mgmt, pwr := t.pwr } t
    let low := s.fget pwrP pwrState = 2 ∧ lpHeld s = false
    (low → tb en 0 = true → Makes .pwrWakeWrite s (woken 2 0))
    ∧ (low → tb en 3 = true → s.rd (ra pwrP 0x054) ≠ 0 → Makes .wakeTimerExpiry s (woken 5 0))
    ∧ (∀ n : Lane, low → tb en 2 = true → tb en (16 + n) = true → s.pwr.sdKept.getLsbD n = true → Makes (.lpSignalDetect n) s (woken 4 n))
    ∧ (s.fget pwrP pwrState = 1 → lpHeld s = false → tb en 0 = true → Makes .pwrWakeWrite s fun t =>
        (t.pwr.wakePend = some (2, 0) ∨ ∃ c n, s.pwr.wakePend = some (c, n) ∧ c ≤ 2 ∧ t.pwr.wakePend = some (c, n))
          ∧ t = { s with pwr := { s.pwr with wakePend := t.pwr.wakePend } })
    ∧ (tb en 0 = false → Keeps .pwrWakeWrite s) ∧ (tb en 3 = false → Keeps .wakeTimerExpiry s)
    ∧ (∀ n : Lane, tb en 2 = false ∨ tb en (16 + n) = false → Keeps (.lpSignalDetect n) s)
    ∧ (lpHeld s = true → Keeps .pwrWakeWrite s ∧ Keeps .wakeTimerExpiry s ∧ ∀ n : Lane, Keeps (.lpSignalDetect n) s)

/-- PACE_CHECK and CONFIRMED_SET: margins at or above the floor end the episode, and the raise but for one that a Waking lane needs; the first low margin raises event 37 for the worst lane and the target by one code; a full window publishes each running lane's margins and sets CONFIRMED unless a write of VCORE is under way or AVS_ERR stands (R325, R334, R335, R337, R341). It rests on choices of the model, which are no rule of the spec: log entries 23 and 51. -/
def Obligations.PaceWindows : Prop :=
  ∀ (s : State) (caps : List (Nat × Nat)),
    let l := paceList s caps
    ((∀ e ∈ l, marginOk s e.2.2.1 1 e.2.2.2 = true) → (∀ n : Lane, wakeShort s n = false) → Makes (.paceCheck caps) s fun t =>
      t.pwr.episode = false ∧ t.flag pwrP vcoreRaise = false ∧ OnlyRegs [ra pwrP 0x064] { s with pwr := t.pwr } t)
    ∧ ((∀ e ∈ l, marginOk s e.2.2.1 1 e.2.2.2 = true) → (∃ n : Lane, wakeShort s n = true) → Makes (.paceCheck caps) s fun t =>
      t.pwr.episode = false ∧ t.flag pwrP vcoreRaise = true ∧ Frame [ra pwrP 0x060, ra pwrP 0x064] [38] s t)
    ∧ ((∃ e ∈ l, marginOk s e.2.2.1 1 e.2.2.2 = false) → s.pwr.episode = true → Makes (.paceCheck caps) s fun t =>
      t.pwr.episode = true ∧ t.flag pwrP vcoreRaise = true ∧ Frame [ra pwrP 0x060, ra pwrP 0x064] [38] s t)
    ∧ (∀ m e, e ∈ l → marginOk s e.2.2.1 1 e.2.2.2 = false → paceMin l = some m → s.pwr.episode = false →
      Makes (.paceCheck caps) s fun t =>
        t.pwr.episode = true ∧ t.flag pwrP vcoreRaise = true ∧ Raised 37 (m.1 + 8 * bit m.2.1) s t
          ∧ (s.fget pwrP vcoreReq < 40 → s.flag pwrP vcoreSlew = false → t.fget pwrP vcoreReq = s.fget pwrP vcoreReq + 1 ∧ t.flag pwrP vcoreConf = false)
          ∧ (40 ≤ s.fget pwrP vcoreReq → t.fget pwrP vcoreReq = s.fget pwrP vcoreReq ∧ t.evt.stat.getLsbD 38 = true)
          ∧ Frame [ra pwrP 0x060, ra pwrP 0x064] [37, 38] s t)
    ∧ (∀ rep : Nat, Makes (.confirmedSet caps rep) s fun t =>
        t.pwr.cRep = rep ∧ (∀ n : Lane, s.running n = true →
          let c := nth (0, 0) caps n
          kget 0 t.pwr.cLane n = min c.1 c.2 ∧ t.fget pwrP ⟨0x080 + 4 * n, 0, 16⟩ = marginCode c.1 (laneRate s n)
            ∧ t.fget pwrP ⟨0x080 + 4 * n, 16, 16⟩ = marginCode c.2 (laneRate s n))
          ∧ t.flag pwrP vcoreConf = (s.flag pwrP vcoreConf || (!s.flag pwrP vcoreSlew && !s.flag pwrP vcoreErr && s.pwr.avsWhole.isNone))
          ∧ (∀ a, a ∉ [0x064, 0x070, 0x074].map (ra pwrP) → (∀ n : Lane, a ≠ paceReg n) → t.rd a = s.rd a)
          ∧ t = { s with regs := t.regs, pwr := t.pwr })

/-- VCORE_REQ_WRITE and AVS_WRITE_DONE: a raise and an allowed lowering move the target, a lowering that R339 does not allow raises event 35; each frame that succeeds moves SENT one code toward the target, and the third failure in a row raises event 39; in thermal shutdown one write is made and no other (R338, R339, R343, R344, R357). It rests on choices of the model, which are no rule of the spec: log entry 17. -/
def Obligations.VcoreMoves : Prop :=
  ∀ (s : State),
    let tgt := s.fget pwrP vcoreReq
    let sent := s.fget pwrP vcoreSent
    (∀ code : BitVec 6,
      let c := min code.toNat 40
      (tgt < c ∨ (c < tgt ∧ lowerOk s c = true) → Makes (.vcoreReqWrite code) s fun t =>
        t.fget pwrP vcoreReq = c ∧ t.flag pwrP vcoreConf = false ∧ t.flag pwrP vcoreSlew = decide (sent ≠ c)
          ∧ OnlyRegs [ra pwrP 0x060, ra pwrP 0x064] s t)
      ∧ (c < tgt → lowerOk s c = false → Makes (.vcoreReqWrite code) s fun t => Raised 35 c s t ∧ OnlyEvents [35] s t)
      ∧ (c = tgt → Keeps (.vcoreReqWrite code) s))
    ∧ (∀ mv : Option Nat, s.flag pwrP avsEn = true → s.shut = false → s.pwr.avsWhole = none → sent ≠ tgt → Makes (.avsWriteDone 0 mv) s fun t =>
        t.fget pwrP vcoreSent = (if sent < tgt then sent + 1 else sent - 1) ∧ t.flag pwrP vcoreErr = false ∧ t.flag pwrP vcoreConf = false
          ∧ t.flag pwrP vcoreSlew = decide (t.fget pwrP vcoreSent ≠ tgt) ∧ t.fget pwrP vcoreReq = tgt
          ∧ OnlyRegs [ra pwrP 0x064] { s with pwr := t.pwr } t)
    ∧ (∀ (mv : Option Nat) (c : Nat), s.flag pwrP avsEn = true → s.shut = false → s.pwr.avsWhole = some c → Makes (.avsWriteDone 0 mv) s fun t =>
        t.fget pwrP vcoreSent = c % 64 ∧ t.pwr.avsWhole = none ∧ t.pwr.avsFails = 0 ∧ OnlyRegs [ra pwrP 0x064] { s with pwr := t.pwr } t)
    ∧ (∀ (r : Fin 4) (mv : Option Nat), s.flag pwrP avsEn = true → s.shut = false → sent ≠ tgt ∨ s.pwr.avsWhole.isSome = true → r ≠ 0 →
        (s.pwr.avsFails < 2 → Makes (.avsWriteDone r mv) s fun t => t = { s with pwr := { s.pwr with avsFails := s.pwr.avsFails + 1 } })
        ∧ (2 ≤ s.pwr.avsFails → Makes (.avsWriteDone r mv) s fun t =>
          t.flag pwrP vcoreErr = true ∧ t.flag pwrP vcoreConf = false ∧ t.pwr.avsFails = 0 ∧ Raised 39 r s t ∧ Frame [ra pwrP 0x064] [39] s t))
    ∧ (∀ (r : Fin 4) (mv : Option Nat), s.flag pwrP avsEn = false → Keeps (.avsWriteDone r mv) s)
    ∧ (∀ (r : Fin 4) (mv : Option Nat), s.shut = true →
        (s.pwr.avsWhole = none → Keeps (.avsWriteDone r mv) s)
        ∧ (∀ c, s.flag pwrP avsEn = true → s.pwr.avsWhole = some c → Makes (.avsWriteDone r mv) s fun t => t.pwr = { s.pwr with avsWhole := none }
            ∧ (r = 0 → t.fget pwrP vcoreSent = c % 64) ∧ (r ≠ 0 → t.regs = s.regs) ∧ OnlyRegs [ra pwrP 0x064] { s with pwr := t.pwr } t))

/-- PWR_DOMAIN_FAULT and POWER_GOOD: a domain that waits fails with event 40 and its pages UNUSABLE, the demodulators of UNUSABLE receivers stopping, or is on and waits no more; a domain that does not wait is left alone (R31, R261, R280, R322). -/
def Obligations.DomainPower : Prop :=
  ∀ (s : State) (d : Fin 32),
    (d.val ∈ s.pwr.waitGood → s.presses = [] → Makes (.pwrDomainFault d) s fun t =>
      Raised 40 d s t ∧ d.val ∈ t.pwr.faults ∧ d.val ∉ t.pwr.waitGood ∧ (∀ p ∈ domainPages d, t.bad p = true)
        ∧ (d = 1 → t.pwr.coreHeld = true) ∧ (∀ n : Lane, t.bad (lrxP n) = true → t.flag (wmkP n) wmkLockF = false)
        ∧ Frame ((List.finRange 8).map (fun (n : Lane) => ra (wmkP n) 0x04C)) [40] s t)
    ∧ (d.val ∈ s.pwr.waitGood → s.presses = [] → Makes (.powerGood d) s fun t =>
      d.val ∉ t.pwr.waitGood ∧ (d = 0 → t.pwr.hkOn = true ∧ (s.pwr.hkOn = false → t.adac.gridAt = s.cycles)) ∧ (d = 1 → t.pwr.coreOn = true)
        ∧ (∀ n : Lane, d.val = 2 + n → t.pwr.laneOn = s.pwr.laneOn ||| BitVec.ofNat 8 (2 ^ n.val))
        ∧ (∀ n : Lane, d.val = 16 + n → t.pwr.subOn = s.pwr.subOn ||| BitVec.ofNat 8 (2 ^ n.val))
        ∧ (∀ k < 4, d.val = 10 + k → t.pwr.hostOn = s.pwr.hostOn ||| BitVec.ofNat 4 (2 ^ k))
        ∧ OnlyRegs [ra 0x008 0x060] { s with pwr := t.pwr, adac := t.adac } t)
    ∧ (d.val ∉ s.pwr.waitGood → Keeps (.pwrDomainFault d) s ∧ Keeps (.powerGood d) s)

/-! Lasers, auxiliary outputs and housekeeping (spec chapters 9 and 10) -/

/-- FAST_TRIP and KEEP_TIMEOUT: a laser that is ON, or that a disable of the same instant has turned off, trips with its cause and its event, goes dark, and retries or locks out by POLICY. RETRY_INTERVAL_END takes it back to ON, LASER_ON_10S clears its trips, CLR_FAULT ends a lockout; in any other state nothing changes (R234, R236, R239, R240). -/
def Obligations.LaserTrips : Prop :=
  ∀ (s : State) (n : Lane),
    let p := s.fget lasP (lbPolicy n)
    let r := s.fget lasP (lbRetries n)
    let retry := p = 3 ∨ (p ≠ 0 ∧ r < 3)
    let tripped (cause : Nat) (t : State) : Prop :=
      (retry → lasLogical t n = 3) ∧ (¬ retry → lasLogical t n = 4 ∧ t.evt.stat.getLsbD (456 + n) = true) ∧ lbOut t n = 0
        ∧ t.fget lasP (lbCause n) = cause ∧ Raised (448 + n) cause s t ∧ t.wmk[n].flareOn = false ∧ (∀ m : Lane, m ≠ n → t.las[m] = s.las[m])
        ∧ Frame [ra lasP (0x0A0 + 4 * n), ra lasP 0x0CC] [448 + n, 456 + n] s t
    (∀ tied : Bool, s.fget lasP (lbState n) = 1 ∨ (tied = true ∧ s.fget lasP (lbState n) = 2) →
      Makes (.fastTrip n tied) s (tripped 3) ∧ Makes (.keepTimeout n tied) s (tripped 4))
    ∧ (∀ tied : Bool, s.fget lasP (lbState n) ≠ 1 → (tied = false ∨ s.fget lasP (lbState n) ≠ 2) →
      Keeps (.fastTrip n tied) s ∧ Keeps (.keepTimeout n tied) s)
    ∧ (s.fget lasP (lbState n) = 1 → Makes (.laserOn10s n) s fun t => t.fget lasP (lbRetries n) = 0 ∧ t.las[n].trips = 0 ∧ t.fget lasP (lbState n) = 1
          ∧ OnlyRegs [ra lasP (0x0A0 + 4 * n)] { s with las := t.las } t)
    ∧ (s.fget lasP (lbState n) ≠ 1 → Keeps (.laserOn10s n) s)
    ∧ (lasLogical s n = 3 → Makes (.retryIntervalEnd n) s fun t =>
        t.fget lasP (lbState n) = (if lasForced s n then 5 else if lasDisabled s n then 2 else 1)
          ∧ lasLogical t n = (if lasDisabled s n then 2 else 1) ∧ t.fget lasP (lbRetries n) = min (r + 1) 3
          ∧ Frame [ra lasP (0x0A0 + 4 * n), ra lasP 0x0CC] [] s t)
    ∧ (lasLogical s n ≠ 3 → Keeps (.retryIntervalEnd n) s)
    ∧ (lasLogical s n = 4 → Makes (.clrFault n) s fun t => lasLogical t n = (if lasDisabled s n then 2 else 1) ∧ t.las[n].trips = 0
        ∧ Frame [ra lasP (0x0A0 + 4 * n), ra lasP 0x0CC] [] s t)
    ∧ (lasLogical s n ≠ 4 → Keeps (.clrFault n) s)

/-- LB_EN_WRITE and SW_DIS_WRITE: an enable takes a laser that is OFF to ON or DISABLED, a cleared one takes it OFF and dark, and a disable moves ON and RETRY to DISABLED and back to ON. TX_DIS_ASSERT and TX_DIS_DEASSERT do the same for the masked lasers, with event 465. VAUX_LOW forces every laser off with event 464 and holds new flash commands, VAUX_OK shows each laser as what it was and lets the flash commands go on (R230, R237, R238, R239, R460). It rests on choices of the model, which are no rule of the spec: log entry 12. -/
def Obligations.LaserOutputs : Prop :=
  ∀ (s : State),
    let masked (n : Lane) := tb (s.rd (ra lasP 0x0C0)) (16 + n)
    let after (anew dis : Bool) (l : Nat) : Nat := if dis = true ∧ (l = 1 ∨ (anew = true ∧ l = 3)) then 2 else if dis = false ∧ l = 2 then 1 else l
    let regs := (List.range 8).map (fun n => ra lasP (0x0A0 + 4 * n)) ++ [ra lasP 0x0CC]
    (∀ n : Lane,
      (lasLogical s n = 0 → Makes (.lbEnWrite n true) s fun t => t.flag lasP (lbEn n) = true ∧ lasLogical t n = (if lasDisabled s n then 2 else 1)
        ∧ Frame (ra lasP (0x040 + 4 * n) :: regs) [] s t)
      ∧ (lasLogical s n ≠ 0 → Makes (.lbEnWrite n true) s fun t => t.flag lasP (lbEn n) = true ∧ OnlyRegs [ra lasP (0x040 + 4 * n)] s t)
      ∧ (Makes (.lbEnWrite n false) s fun t => t.flag lasP (lbEn n) = false ∧ lasLogical t n = 0 ∧ lbOut t n = 0
        ∧ Frame (ra lasP (0x040 + 4 * n) :: regs) [] s t)
      ∧ (∀ dis : Bool, Makes (.swDisWrite n dis) s fun t => t.flag lasP (lbSwDis n) = dis
        ∧ lasLogical t n = after dis (dis || (s.adac.txDis && masked n)) (lasLogical s n) ∧ Frame (ra lasP (0x040 + 4 * n) :: regs) [] s t))
    ∧ (s.adac.txDis = false → Makes .txDisAssert s fun t => t.adac.txDis = true ∧ t.flag lasP lasTxDis = true ∧ Raised 465 0 s t
        ∧ (∀ n : Lane, lasLogical t n = after (masked n) (s.flag lasP (lbSwDis n) || masked n) (lasLogical s n)) ∧ Frame regs [465] s t)
    ∧ (s.adac.txDis = true → Keeps .txDisAssert s)
    ∧ (Makes .txDisDeassert s fun t => t.adac.txDis = false ∧ t.flag lasP lasTxDis = false
        ∧ (∀ n : Lane, lasLogical t n = after false (s.flag lasP (lbSwDis n)) (lasLogical s n)) ∧ Frame regs [] s t)
    ∧ (Makes .vauxLow s fun t => t.flag lasP lasVaux = false ∧ Raised 464 0 s t ∧ Dark t ∧ t.nv = { s.nv with hold := true }
        ∧ (∀ n : Lane, t.fget lasP (lbState n) = 5 ∧ lasLogical t n = lasLogical s n) ∧ Frame regs [464] s t)
    ∧ (Makes .vauxOk s fun t => t.flag lasP lasVaux = true ∧ t.nv.hold = false
        ∧ (∀ n : Lane, t.fget lasP (lbState n)
            = if lasForced t n = true ∧ (lasLogical s n ≠ 0 ∨ s.fget lasP (lbState n) = 5) then 5 else lasLogical s n % 8)
        ∧ (s.nv.queue = [] → s.nv.compact ≠ 1 → Frame (regs ++ [ra nvsP 0x040, ra nvsP 0x044]) [] s t))

/-- ADAC_STROBE, LDAC_N_FALL and HOLD_LB_WRITE: a strobe copies every holding register of its groups and no other and ends the waits for it, a low of 100 ns strobes the masked groups, one below 50 ns none (R194, R229, R236). The frame clause holds where TBLM, which the compensation is read from, holds no errors. NCO_RESTART, NCO_WRAP_APPLY, NCO_TBL_WRITE and AV_DITHER_UPDATE: phases of a gang, FTW and AMP at the wrap, the table only while EN = 0, and a dithered code held to 0 to 65,535 with AV_SAT (R231, R232, R255). The last frame clause holds where TBLM, which the samples are read from, holds no errors. It rests on choices of the model, which are no rule of the spec: log entry 60. -/
def Obligations.StrobesAndDither : Prop :=
  (∀ (s : State),
    (∀ g : BitVec 4,
      let lb (n : Lane) := tb g.toNat (s.fget adacP ⟨0x0A0, 2 * n, 2⟩)
      let av (m : Nat) := tb g.toNat (s.fget adacP ⟨0x0A4, 2 * m, 2⟩)
      Makes (.adacStrobe g) s fun t =>
        (∀ n : Lane, t.las[n].held = (if lb n then BitVec.ofNat 16 (s.rd (ra adacP (0x040 + 4 * n))) else s.las[n].held)
            ∧ t.las[n].strobed = (s.las[n].strobed || lb n))
          ∧ (∀ m < 16, kget 0 t.adac.held m = (if av m then s.rd (ra adacP (0x060 + 4 * m)) % 65536 else kget 0 s.adac.held m)
            ∧ kget 0 t.adac.code m = (if av m then s.rd (ra adacP (0x060 + 4 * m)) % 65536 else kget 0 s.adac.code m)
            ∧ t.adac.strobed.getLsbD m = (s.adac.strobed.getLsbD m || av m))
          ∧ (∀ (e : Eng) (i : Nat), i < 4 → tb g.toNat i = true → s.eng[e].phase = .waiting (2 + i) → t.eng[e].phase = .running)
          ∧ ((∀ a, a / 65536 = 175 → s.chkErr a = 0) → Frame ((List.range 8).map (fun n => ra lasP (0x0A0 + 4 * n)) ++ [ra lasP 0x0CC]) [472] s t))
    ∧ (∀ k : Nat, 100 ≤ k → exec (.ldacNFall k) s = exec (.adacStrobe (BitVec.ofNat 4 (bits (s.rd (ra adacP 0x0B4)) 4 4))) s)
    ∧ (∀ k : Nat, k < 50 → Keeps (.ldacNFall k) s)
    ∧ (∀ k : Nat, 50 ≤ k → k < 100 → Makes (.ldacNFall k) s fun t =>
        let s' := { s with drawn := s.drawn + 1 }
        t = s' ∨ exec (.adacStrobe (BitVec.ofNat 4 (bits (s.rd (ra adacP 0x0B4)) 4 4))) s' = .next t)
    ∧ (∀ (n : Lane) (v : Word), Makes (.holdLbWrite n v) s fun t =>
        t.rd (ra adacP (0x040 + 4 * n)) = v.toNat % 65536 ∧ OnlyRegs [ra adacP (0x040 + 4 * n)] s t))
  ∧ (∀ (s : State) (k : Fin 4),
    (Makes (.ncoRestart k) s fun t =>
      (∀ j : Fin 4, t.adac.phase[j] = if j = k ∨ tb (s.rd (ra (ncoP j) 0x040)) 2 = true then BitVec.ofNat 32 (s.rd (ra (ncoP j) 0x04C)) else s.adac.phase[j])
        ∧ t = { s with adac := { s.adac with phase := t.adac.phase } })
    ∧ (∀ cycles : Nat,
        let p : Nat := s.adac.phase[k].toNat
        let f : Nat := s.adac.ftw[k].toNat
        let wraps := 0 < cycles ∧ (p + f * (cycles - 1)) / 2 ^ 32 < (p + f * cycles) / 2 ^ 32
        (ncoClocked s = true → wraps → Makes (.ncoWrapApply k cycles) s fun t =>
          t.adac.ftw[k] = BitVec.ofNat 32 (s.rd (ra (ncoP k) 0x044)) ∧ t.adac.amp[k] = BitVec.ofNat 16 (s.rd (ra (ncoP k) 0x048))
            ∧ t.adac.phase[k] = BitVec.ofNat 32 (p + f * cycles) ∧ t = { s with adac := t.adac })
        ∧ (ncoClocked s = false ∨ ¬ wraps → Keeps (.ncoWrapApply k cycles) s))
    ∧ (∀ v : Word,
        let i := s.fget (ncoP k) ⟨0x050, 0, 10⟩
        let a := 175 * 65536 + ncoOff k i
        (tb (s.rd (ra (ncoP k) 0x040)) 0 = false → Makes (.ncoTblWrite k v) s fun t =>
          t.fget (ncoP k) ⟨0x050, 0, 10⟩ = (i + 1) % 1024
            ∧ (flipActs s 6 = false → t.fetch a = BitVec.ofNat 8 v.toNat ∧ t.fetch (a + 1) = BitVec.ofNat 8 (v.toNat / 256))
            ∧ (∀ x, x < eccBase a ∨ eccBase a + 4 ≤ x → t.byte x = s.byte x) ∧ t.evt = s.evt
            ∧ (∀ r, r ≠ ra (ncoP k) 0x050 → sideReg r = false → t.rd r = s.rd r))
        ∧ (tb (s.rd (ra (ncoP k) 0x040)) 0 = true → Makes (.ncoTblWrite k v) s fun t =>
          t.fget (ncoP k) ⟨0x050, 0, 10⟩ = (i + 1) % 1024 ∧ t.rd (ra (ncoP k) 0x024) = ncoP k + 0x054 * 2 ^ 12 + 17 * 2 ^ 22 + 2 * 2 ^ 30
            ∧ OnlyRegs [ra (ncoP k) 0x024, ra (ncoP k) 0x050] s t))
    ∧ (∀ (m : Fin 16) (cycles : Nat),
        (avNco s m = some k → dithered s m = true → Makes (.avDitherUpdate m cycles) s fun t =>
          t.adac.phase[k] = BitVec.ofNat 32 (s.adac.phase[k].toNat + s.adac.ftw[k].toNat * cycles) ∧ t.adac.held = s.adac.held
            ∧ ((∀ a, a / 65536 = 175 → s.chkErr a = 0) →
                kget 0 t.adac.code m = (clampI 0 65535 (avSum t k m)).toNat
                  ∧ (avSum t k m < 0 ∨ 65535 < avSum t k m → avSatNow t m = true ∧ (avSatNow s m = false → Raised 469 m s t))
                  ∧ Frame [] [469] s t))
        ∧ (avNco s m = some k → dithered s m = false → Makes (.avDitherUpdate m cycles) s fun t =>
          t.adac.phase[k] = (if ncoClocked s then BitVec.ofNat 32 (s.adac.phase[k].toNat + s.adac.ftw[k].toNat * cycles) else s.adac.phase[k])
            ∧ t = { s with adac := { s.adac with phase := t.adac.phase } })
        ∧ (avNco s m = none → Keeps (.avDitherUpdate m cycles) s)))

/-- MI2C_START, MI2C_DONE and MI2C_STUCK: a START is refused while BUSY, while the port is off, or beyond 4 bytes; the end shows DONE, ERR and the byte not acknowledged, with event 470 + p (R254, R255). It rests on choices of the model, which are no rule of the spec: log entry 13. -/
def Obligations.PeripheralI2c : Prop :=
  ∀ (s : State) (p : Fin 2),
    let st := s.rd (mi2c p 0x110)
    let cmd := s.rd (mi2c p 0x104)
    let bad := tb st 0 = true ∨ tb (s.rd (mi2c p 0x100)) 0 = false ∨ 4 < bits cmd 7 3 ∨ 4 < bits cmd 10 3
    (¬ bad → Makes (.mi2cStart p) s fun t => t.rd (mi2c p 0x110) = 1 ∧ OnlyRegs [mi2c p 0x110] s t)
    ∧ (bad → Makes (.mi2cStart p) s fun t => t.rd (mi2c p 0x110) = setBits st 7 1 1 ∧ OnlyRegs [mi2c p 0x110] s t)
    ∧ (tb st 0 = true →
        (∀ l : List Byte, Makes (.mi2cDone p none l) s fun t =>
          t.rd (mi2c p 0x10C) = ofLE (l.take (bits cmd 10 3)) % 2 ^ 32 ∧ bits (t.rd (mi2c p 0x110)) 0 4 = 2
            ∧ OnlyRegs [mi2c p 0x10C, mi2c p 0x110] s t)
        ∧ (∀ (k : Nat) (l : List Byte), Makes (.mi2cDone p (some k) l) s fun t =>
          t.rd (mi2c p 0x10C) = 0 ∧ bits (t.rd (mi2c p 0x110)) 0 4 = 2 + 4 * (if k = 0 ∨ k = bits cmd 7 3 + 1 then 1 else 2) ∧ bits (t.rd (mi2c p 0x110)) 4 3 = k % 8
            ∧ Raised (470 + p) (if k = 0 ∨ k = bits cmd 7 3 + 1 then 1 else 2) s t ∧ Frame [mi2c p 0x10C, mi2c p 0x110] [470 + p] s t)
        ∧ (∀ l : List Byte, Makes (.mi2cStuck p l) s fun t => t.rd (mi2c p 0x10C) = ofLE (l.take (bits cmd 10 3)) % 2 ^ 32
            ∧ bits (t.rd (mi2c p 0x110)) 0 4 = 2 + 4 * 3 ∧ Raised (470 + p) 3 s t ∧ Frame [mi2c p 0x10C, mi2c p 0x110] [470 + p] s t))
    ∧ (tb st 0 = false → ∀ l, (∀ k, Keeps (.mi2cDone p k l) s) ∧ Keeps (.mi2cStuck p l) s)

/-- HK_PASS_START, GUARD_TIMER_EXPIRY, HOST_REQ_START and RES_SUM_LO_READ: the start of a pass or its overrun, who begins, aborts and waits on a converter, and a result read in one snapshot with READY once (R32, R246, R248, R249, R253, R261, R272). -/
def Obligations.HousekeepingRequests : Prop :=
  ∀ (s : State) (up : Bool),
    let b : Fin 2 := if up then 1 else 0
    let on := hkServes s b = true ∧ tb (s.rd (ra (seqPage s b) 0x080)) 4 = true
    let show_ := [ra (hkP b) 0x08C, ra (hkP b) 0x1F4]
    (on → s.hk[b].inPass = true → Makes (.hkPassStart up) s fun t =>
      t.hk[b].late = true ∧ t.fget (hkP b) hkOverF = min (s.fget (hkP b) hkOverF + 1) 255 ∧ (s.hk[b].streak = false → Raised 466 b s t)
        ∧ Frame [ra (hkP b) 0x08C] [466] s t)
    ∧ (on → s.hk[b].inPass = false → ∀ x, hkJob s b (.entry 0) = some x → s.hk[b].run = none → Makes (.hkPassStart up) s fun t =>
      t.hk[b].inPass = true ∧ t.hk[b].next = 1 ∧ t.fget (hkP b) hkEntryF = 0 ∧ (∃ r, t.hk[b].run = some r ∧ r.job = .entry 0 ∧ r.set = x.1 ∧ r.start = gridNow s + 1)
        ∧ Frame show_ [] s t)
    ∧ (¬ on → Keeps (.hkPassStart up) s)
    ∧ (∀ n : Lane,
        let g := Guard.las n.val
        let run := s.hk[(0 : Fin 2)].run
        (s.fget lasP (lbState n) = 1 → hkUp s 0 = true → (∀ r h, run = some r → r.job ≠ .guard h) → Makes (.guardTimerExpiry n) s fun t =>
          (∃ r, t.hk[(0 : Fin 2)].run = some r ∧ r.job = .guard g ∧ r.set.input = 0x20 + 4 * n + s.fget lasP (lbRange n))
            ∧ (∀ r, run = some r → t.hk[(0 : Fin 2)].aborted = some (r.job, hkAgain r s)) ∧ t.flag 0x060 hkGuardF = true
            ∧ Frame [ra 0x060 0x08C, ra 0x060 0x1F4] [467] s t)
        ∧ (s.fget lasP (lbState n) = 1 → hkUp s 0 = true → ∀ r h, run = some r → r.job = .guard h →
            (s.hk[(0 : Fin 2)].guards.length < 4 → Makes (.guardTimerExpiry n) s fun t =>
              t = s.setHk 0 (fun k => { k with guards := k.guards ++ [g] }))
            ∧ (4 ≤ s.hk[(0 : Fin 2)].guards.length → Makes (.guardTimerExpiry n) s fun t =>
              t.las[n].due = true ∧ Raised 468 0 s t ∧ t.fget 0x060 hkDropF = min (s.fget 0x060 hkDropF + 1) 255 ∧ Frame [ra 0x060 0x08C] [468] s t))
        ∧ (s.fget lasP (lbState n) ≠ 1 ∨ hkUp s 0 = false → Keeps (.guardTimerExpiry n) s))
    ∧ (let free := s.flag (hkP b) hkBusyF = false ∧ hkUp s b = true ∧ s.fget pwrP pwrState = 0 ∧ (hkJob s b .host).isSome = true
       (free → Makes (.hostReqStart up) s fun t => t.flag (hkP b) hkBusyF = true ∧ t.flag (hkP b) hkRefusedF = false
          ∧ (s.hk[b].run = none → ∃ r, t.hk[b].run = some r ∧ r.job = .host) ∧ (s.hk[b].run.isSome = true → t.hk[b].hostWait = true ∧ t.hk[b].run = s.hk[b].run)
          ∧ Frame (ra (hkP b) 0x088 :: show_) [] s t)
       ∧ (¬ free → Makes (.hostReqStart up) s fun t => t.flag (hkP b) hkRefusedF = true ∧ t.flag (hkP b) hkBusyF = s.flag (hkP b) hkBusyF
          ∧ OnlyRegs [ra (hkP b) 0x088] s t))
    ∧ (∀ slot : Fin 17,
        let r := s.hk[b].res[slot]
        let o := 0x090 + 0x14 * slot.val
        Makes (.resSumLoRead up slot) s fun t =>
          t.fget (hkP b) ⟨o, 0, 24⟩ = r.sum.toNat % 2 ^ 24 ∧ t.flag (hkP b) ⟨o, 24, 1⟩ = r.fresh ∧ t.fget (hkP b) ⟨o, 25, 7⟩ = r.input % 128
            ∧ t.rd (ra (hkP b) (o + 4)) = r.sum.toNat / 2 ^ 24 ∧ t.rd (ra (hkP b) (o + 8)) = r.min.toNat ∧ t.rd (ra (hkP b) (o + 12)) = r.max.toNat
            ∧ t.fget (hkP b) ⟨o + 16, 0, 16⟩ = r.cnt % 65536 ∧ t.fget (hkP b) ⟨o + 16, 16, 16⟩ = r.seqn % 65536
            ∧ t.hk[b].res[slot] = { r with fresh := false } ∧ (∀ j : Fin 17, j ≠ slot → t.hk[b].res[j] = s.hk[b].res[j])
            ∧ OnlyRegs ([0, 4, 8, 12, 16].map (fun i => ra (hkP b) (o + i))) { s with hk := t.hk } t)

/-- HK_CONVERSION_DONE, FC_SYNC, FC_SHIFT_CHANGE, FC_COMMIT and SENSOR_STALE: the outputs of the filter chain published in the slot of their entry or of the host, histories zero after a synchronising reset, banks that wait for their next conversion, and a sensor that is VALID no more (R251, R267, R271, R348, R352). It rests on choices of the model, which are no rule of the spec: log entries 25 and 57. -/
def Obligations.HousekeepingConversions : Prop :=
  ∀ (s : State) (up : Bool),
    let b : Fin 2 := if up then 1 else 0
    let show_ := [ra (hkP b) 0x08C, ra (hkP b) 0x1F4]
    let steady := ∀ r, s.hk[b].run = some r → (hkJob s b r.job).isSome = true
    (∀ (before l : List Bool) (ph : List (BitVec 32)) (tied : Bool) (r : HkRun), s.hk[b].run = some r → hkUp s b = true → r.need ≤ (hkChunks l).length →
      let f := (fcOutputs (fcMode s b) s.hk[b].live r.set.bank (hkChunks before) s.hk[b].filt).2
      let o := fcOutputs (fcMode s b) s.hk[b].live r.set.bank ((hkChunks l).take r.need) f
      let outs := (o.1.drop r.discard).map (fun x => x.1)
      let clean := r.ref = 0 ∨ ∀ a, a / 65536 = 175 → s.chkErr a = 0
      (∀ e, r.job = .entry e → Makes (.hkConversionDone up before l ph tied) s fun t =>
        t.hk[b].filt = o.2 ∧ (clean → t.hk[b].res[(Fin.ofNat 17 (e % 16) : Fin 17)]
          = s.hk[b].res[(Fin.ofNat 17 (e % 16) : Fin 17)].publish (hkSum s r.ref outs ph) outs r.set.input))
      ∧ (r.job = .host → Makes (.hkConversionDone up before l ph tied) s fun t =>
        t.hk[b].filt = o.2 ∧ t.flag (hkP b) hkBusyF = false
          ∧ (clean → t.hk[b].res[(16 : Fin 17)] = s.hk[b].res[(16 : Fin 17)].publish (hkSum s r.ref outs ph) outs r.set.input))
      ∧ (∀ n, r.job = .guard (.las n) → Makes (.hkConversionDone up before l ph tied) s fun t => t.hk[b].filt = o.2 ∧ t.hk[b].res = s.hk[b].res))
    ∧ (∀ before l ph tied, s.hk[b].run = none → Keeps (.hkConversionDone up before l ph tied) s)
    ∧ (Makes (.fcSync up) s fun t => t.hk[b].filt = {} ∧ t.hk[b].res = s.hk[b].res
        ∧ (∀ r, s.hk[b].run = some r → (hkJob s b r.job).isSome = true →
            ∃ r', t.hk[b].run = some r' ∧ r'.job = r.job ∧ 20 ≤ r'.discard ∧ r.discard ≤ r'.discard ∧ r'.start = gridNow s + 1)
        ∧ (steady → Frame show_ [] s t))
    ∧ (∀ v : Word, Makes (.fcShiftChange up v) s fun t => t.rd (ra (hkP b) 0x1E4) = v.toNat &&& 0x7FE
        ∧ (s.rd (ra (hkP b) 0x1E4) ≠ v.toNat &&& 0x7FE → t.hk[b].filt = {}) ∧ (s.rd (ra (hkP b) 0x1E4) = v.toNat &&& 0x7FE → t.hk = s.hk)
        ∧ (steady → Frame (ra (hkP b) 0x1E4 :: show_) [] s t))
    ∧ (∀ banks : BitVec 2, Makes (.fcCommit up banks) s fun t =>
        t.rd (ra (hkP b) 0x1F4) = s.rd (ra (hkP b) 0x1F4) ||| (banks.toNat * 2 ^ 17) ∧ OnlyRegs [ra (hkP b) 0x1F4] s t)
    ∧ (∀ i : Fin 12, Makes (.sensorStale i) s fun t => t.flag thmP (tempValid i) = false
        ∧ (bandTemp t = none → t.fget thmP thmBand = 4 ∧ (s.fget thmP thmBand ≠ 4 → Raised 48 (4 + 8 * s.fget thmP thmBand) s t))
        ∧ ((bandTemp t).isSome = true → t.fget thmP thmBand = s.fget thmP thmBand)
        ∧ Frame [ra thmP (0x048 + 4 * i), ra thmP 0x040, ra thmP 0x044, ra pwrP 0x06C, ra memP 0x0A4] [48] s t)

/-! Calibration and self-test (spec chapter 8) -/

/-- BG_ESTIMATE_DONE, CAL_VERIFY, BG_VERIFY_DONE, CAL_SWAP, SLICE_SWAP and CAL_STAT_READ: the background cycle from the samples of its shadow phases to the swap, its failed attempts, the round's lowest figure, and commands ignored in another state (R77, R213 to R218). -/
def Obligations.BackgroundCalibration : Prop :=
  ∀ (s : State) (n : Lane),
    let st := s.fget bistP (calState n)
    let stat := ra bistP (0x044 + 0x20 * n)
    let ignoredHere (t : State) : Prop :=
      t.rd (ra bistP 0x024) = bistP + (0x054 + 0x20 * n.val) * 2 ^ 12 + 16 * 2 ^ 22 + 2 * 2 ^ 30 ∧ OnlyRegs [ra bistP 0x024] s t
    (∀ samples : List Shadow,
      let r := estimates s n (samples.map (shadowed s n (s.fget bistP (calTarget n))))
      (st = 1 → samples.length = shadowLen s n → Makes (.bgEstimateDone n samples) s fun t =>
        t.fget bistP (calState n) = 2 ∧ t.cal[n].fresh = true ∧ t.rd (ra bistP (0x048 + 0x20 * n)) = (r.1.1 + r.1.2.1 * 65536) % 2 ^ 32
          ∧ t.fget bistP ⟨0x04C + 0x20 * n, 0, 16⟩ = r.1.2.2 % 65536
          ∧ OnlyRegs ([0x044, 0x048, 0x04C].map (fun o => ra bistP (o + 0x20 * n))) { s with cal := t.cal, drawn := r.2.drawn } t)
      ∧ (st ≠ 1 ∨ samples.length ≠ shadowLen s n → Keeps (.bgEstimateDone n samples) s))
    ∧ (st = 2 → Makes (.calVerify n) s fun t =>
        t.fget bistP (calState n) = 3 ∧ corrOf t n s.cal[n].out = s.rd (calPend n) % 2 ^ 30 ∧ OnlyRegs [stat] { s with cal := t.cal } t)
    ∧ (st ≠ 2 → Makes (.calVerify n) s ignoredHere)
    ∧ (∀ samples : List Shadow,
        let q := rqfOf (samples.map (shadowed s n (s.fget bistP (calTarget n))))
        let verified := st = 3 ∧ samples.length = shadowLen s n
        (verified → rqfMin s ≤ q → Makes (.bgVerifyDone n samples) s fun t =>
          t.fget bistP (calState n) = 4 ∧ t.fget bistP (calRqf n) = q % 65536 ∧ t.cal[n].fresh = true
            ∧ (s.cal[n].round ≠ 0 → t.fget bistP (calMin n) = min q (s.fget bistP (calMin n)))
            ∧ (s.cal[n].round = 0 → t.cal[n].roundLow = min s.cal[n].roundLow q)
            ∧ OnlyRegs [stat, ra bistP (0x04C + 0x20 * n)] { s with cal := t.cal } t)
        ∧ (verified → q < rqfMin s → s.fget bistP (calAttempt n) = 0 → Makes (.bgVerifyDone n samples) s fun t =>
          t.fget bistP (calState n) = 1 ∧ t.fget bistP (calAttempt n) = 1 ∧ t.rd (calPend n) = corrOf s n s.cal[n].out % 2 ^ 32
            ∧ OnlyRegs [stat, ra bistP (0x04C + 0x20 * n), calPend n] { s with cal := t.cal } t)
        ∧ (verified → q < rqfMin s → s.fget bistP (calAttempt n) ≠ 0 → s.flag (lrxP n) adcNoSpare = false → Makes (.bgVerifyDone n samples) s fun t =>
          t.cal[n].retired = some s.cal[n].out ∧ t.flag (lrxP n) adcNoSpare = true ∧ t.fget (lrxP n) adcFailed = s.cal[n].out % 128
            ∧ Raised (evLane n 18) s.cal[n].out s t
            ∧ Frame ([ra (lrxP n) 0x06C, ra bistP (0x04C + 0x20 * n), ra (wmkP n) 0x04C] ++ calRegs n) [evLane n 18] s t)
        ∧ (verified → q < rqfMin s → s.fget bistP (calAttempt n) ≠ 0 → s.flag (lrxP n) adcNoSpare = true → s.bad (lrxP n) = false →
          Makes (.bgVerifyDone n samples) s fun t => t.bad (lrxP n) = true ∧ t.flag bistP ⟨0x14C, n, 1⟩ = true ∧ t.flag (wmkP n) wmkLockF = false
            ∧ Raised 25 n s t)
        ∧ (¬verified → Keeps (.bgVerifyDone n samples) s))
    ∧ (st = 4 → rqfMin s ≤ s.fget bistP (calRqf n) → Makes (.calSwap n) s fun t => t.fget bistP (calState n) = 5 ∧ OnlyRegs [stat] s t)
    ∧ (st = 4 → s.fget bistP (calRqf n) < rqfMin s → s.fget bistP (calAttempt n) = 0 → Makes (.calSwap n) s fun t =>
        t.fget bistP (calState n) = 1 ∧ t.fget bistP (calAttempt n) = 1 ∧ OnlyRegs [stat, calPend n] { s with cal := t.cal } t)
    ∧ (st = 4 → s.fget bistP (calRqf n) < rqfMin s → s.fget bistP (calAttempt n) ≠ 0 → s.flag (lrxP n) adcNoSpare = false → Makes (.calSwap n) s fun t =>
        t.cal[n].retired = some s.cal[n].out ∧ t.flag (lrxP n) adcNoSpare = true ∧ Raised (evLane n 18) s.cal[n].out s t)
    ∧ (st ≠ 4 → Makes (.calSwap n) s ignoredHere)
    ∧ (let p := s.fget bistP (calTarget n)
       st = 5 → s.lanes[n].slices.length = 64 → Makes (.sliceSwap n) s fun t =>
        nth 0 t.lanes[n].slices p = s.cal[n].out ∧ t.cal[n].out = nth 0 s.lanes[n].slices p
          ∧ (∀ j < 64, j ≠ p → nth 0 t.lanes[n].slices j = nth 0 s.lanes[n].slices j)
          ∧ t.fget (lrxP n) adcOut = nth 0 s.lanes[n].slices p % 128 ∧ t.fget (lrxP n) adcSwaps = (s.fget (lrxP n) adcSwaps + 1) % 65536
          ∧ t.fget bistP (calTarget n) = (p + 1) % 64 ∧ t.fget bistP (calAttempt n) = 0 ∧ t.fget bistP (calState n) = 1
          ∧ (s.cal[n].round = 0 → t.fget bistP (calMin n) = min s.cal[n].roundLow (s.fget bistP (calRqf n)) % 65536)
          ∧ (s.fget bistP (calRqf n) < rqfWarn s → Raised 24 n s t)
          ∧ Frame ([ra (lrxP n) 0x06C] ++ calRegs n) (if s.fget bistP (calRqf n) < rqfWarn s then [24] else []) s t)
    ∧ (st ≠ 5 → Keeps (.sliceSwap n) s)
    ∧ (Makes (.calStatRead n) s fun t =>
        t.flag bistP (calReady n) = s.cal[n].fresh ∧ t.cal[n].fresh = false ∧ OnlyRegs [stat] { s with cal := t.cal } t)

/-- FG_REQ, FOREGROUND_CAL_DONE, CORR_DATA_WRITE, IST_START and IST_DONE: foreground calibration only while parked, its corrections, its failed slice and its loopback, the correction window, and tests that save, restore and report (R160, R211, R215, R219 to R221, R223 to R225, R317). It rests on choices of the model, which are no rule of the spec: log entry 31. -/
def Obligations.ForegroundAndTests : Prop :=
  ∀ (s : State) (n : Lane),
    let err (off cause : Nat) (t : State) : Prop := t.rd (ra bistP 0x024) = bistP + off * 2 ^ 12 + cause * 2 ^ 22 + 2 * 2 ^ 30
    let may := (s.parked (lrxP n) = true ∨ s.parked (lfmP n) = true) ∧ s.cal[n].fg = false ∧ s.bad (lrxP n) = false
      ∧ ¬ (s.ist.kind = 1 ∧ s.ist.unit = n.val)
    (may → Makes (.fgReq n) s fun t => t.cal[n].fg = true ∧ t.flag (lrxP n) lrxLos = true ∧ t.flag (lrxP n) lrxCdr = false
      ∧ t.fget bistP (calState n) = 7 ∧ t.cal[n].fgAt = s.cycles
      ∧ (s.lanes[n].run = true → s.free n = false → s.lanes[n].goodRx = true → t.lanes[n].holdRx = true)
      ∧ Frame ([0x05C, 0x060, 0x064].map (ra (lrxP n)) ++ [ra (wmkP n) 0x04C, ra 0x007 0x040] ++ calRegs n) [18] s t)
    ∧ (¬ may → Makes (.fgReq n) s fun t => err (0x054 + 0x20 * n) 16 t ∧ OnlyRegs [ra bistP 0x024] s t)
    ∧ (∀ (corrs failed rqfs again : List Nat) (errors : Nat), s.cal[n].fg = true → s.fget bistP (calState n) = 7 →
        let gone := slicesFailed s failed rqfs again
        (gone = [] → loopFails s n errors = false → Makes (.foregroundCalDone n corrs failed rqfs again errors) s fun t =>
          t.cal[n].fg = false ∧ (∀ i < 65, corrOf t n i = nth 0 corrs i % 2 ^ 30) ∧ t.lanes[n].fig.above = 0
            ∧ (t.lanes[n].slices, t.cal[n].out) = mapWithout (List.range 64) 64 s.cal[n].retired ∧ t.fget (lrxP n) adcOut = t.cal[n].out % 128
            ∧ (t.cal[n].out ≠ s.cal[n].out → t.fget bistP (calAttempt n) = 0)
            ∧ Frame ([ra (lrxP n) 0x06C, ra (wmkP n) 0x04C] ++ calRegs n) [] s t)
        ∧ (∀ x < 65, gone = [x] → s.flag (lrxP n) adcNoSpare = false → s.cal[n].retired ≠ some x →
          Makes (.foregroundCalDone n corrs failed rqfs again errors) s fun t =>
            t.cal[n].fg = false ∧ t.cal[n].retired = some x ∧ t.flag (lrxP n) adcNoSpare = true ∧ t.cal[n].out = x ∧ Raised (evLane n 18) x s t)
        ∧ (gone = [] → loopFails s n errors = true → s.bad (lrxP n) = false → s.bad (ltxP n) = false →
          Makes (.foregroundCalDone n corrs failed rqfs again errors) s fun t =>
            t.cal[n].fg = false ∧ t.bad (ltxP n) = true ∧ Raised 25 (16 + n) s t))
    ∧ (∀ corrs failed rqfs again errors, s.cal[n].fg = false → Keeps (.foregroundCalDone n corrs failed rqfs again errors) s)
    ∧ (∀ v : Word,
        let may := s.running n = false ∨ s.parked (lrxP n) = true ∨ s.parked (lfmP n) = true
        let i := s.fget bistP ⟨0x058 + 0x20 * n, 0, 7⟩
        (may → Makes (.corrDataWrite n v) s fun t => corrOf t n i = v.toNat % 2 ^ 30 ∧ (∀ j, j ≠ i → corrOf t n j = corrOf s n j)
          ∧ t = { s with cal := t.cal })
        ∧ (¬ may → Makes (.corrDataWrite n v) s fun t => err (0x05C + 0x20 * n) 17 t ∧ OnlyRegs [ra bistP 0x024] s t))
    ∧ (∀ v : Word,
        let u := bits v.toNat 2 10
        let refused (t : State) : Prop := t.fget bistP istResult = 5 ∧ err 0x154 19 t ∧ t.ist = s.ist ∧ OnlyRegs [ra bistP 0x024, ra bistP 0x154, ra bistP 0x158] s t
        (v.getLsbD 12 = false → Makes (.istStart v) s fun t => t.rd (ra bistP 0x154) = v.toNat % 4096 ∧ OnlyRegs [ra bistP 0x154] s t)
        ∧ (v.getLsbD 12 = true → s.ist.kind = 0 → v.toNat % 4 = 1 → u = n.val → istIdle s n = true → windowArmed s = false → Makes (.istStart v) s fun t =>
          t.ist.kind = 1 ∧ t.ist.unit = n.val ∧ t.flag bistP istBusy = true ∧ t.lanes[n].outHold = true
            ∧ OnlyRegs [ra bistP 0x154, ra bistP 0x158] { s with ist := t.ist, lanes := t.lanes } t)
        ∧ (v.getLsbD 12 = true → s.ist.kind = 0 → v.toNat % 4 = 2 → u < 176 → u ≠ saveWindow → windowArmed s = false → s.ist.redirected = none →
          Makes (.istStart v) s fun t => t.ist.kind = 2 ∧ t.ist.unit = u ∧ t.flag bistP istBusy = true
            ∧ (∀ o < blockBytes u, t.window (saveWindow * 65536 + o) = u * 65536 + o ∧ (s.rd flipMask = 0 → t.fetch (u * 65536 + o) = s.fetch (u * 65536 + o))))
        ∧ (v.getLsbD 12 = true → s.ist.kind ≠ 0 ∨ v.toNat % 4 = 0 ∨ v.toNat % 4 = 3 ∨ (v.toNat % 4 = 1 ∧ (8 ≤ u ∨ (u = n.val ∧ istIdle s n = false)))
            ∨ (v.toNat % 4 = 2 ∧ (176 ≤ u ∨ u = saveWindow ∨ s.ist.redirected ≠ none)) ∨ windowArmed s = true →
          Makes (.istStart v) s refused))
    ∧ (∀ (o : TestOutcome), s.ist.kind = 0 → Keeps (.istDone o) s)
    ∧ (∀ (failed rqfs again : List Nat) (errors : Nat), s.ist.kind = 1 → s.ist.unit = n.val →
        let gone := slicesFailed s failed rqfs again
        (gone = [] → loopFails s n errors = false → Makes (.istDone (.lane failed rqfs again errors)) s fun t =>
          t.ist.kind = 0 ∧ t.fget bistP istResult = 1 ∧ t.flag bistP istBusy = false ∧ t.lanes[n].outHold = false ∧ Raised 26 1 s t)
        ∧ (∀ x < 65, gone = [x] → s.flag (lrxP n) adcNoSpare = false → s.cal[n].retired ≠ some x → Makes (.istDone (.lane failed rqfs again errors)) s fun t =>
          t.ist.kind = 0 ∧ t.fget bistP istResult = 3 ∧ t.cal[n].retired = some x ∧ t.cal[n].out = x ∧ Raised (evLane n 18) x s t ∧ Raised 26 3 s t))
    ∧ (s.ist.kind = 2 →
        let u := s.ist.unit
        let gone (t : State) : Prop := t.ist.kind = 0 ∧ t.fget bistP istResult = 3 ∧ t.ist.redirected = some u ∧ tb (kget 0 t.rep u) 6 = true
          ∧ t.evt.stat.getLsbD 25 = true ∧ t.evt.stat.getLsbD 26 = true
        (Makes (.istDone .memPass) s fun t => t.ist.kind = 0 ∧ t.fget bistP istResult = 1 ∧ t.flag bistP istBusy = false ∧ Raised 26 1 s t)
        ∧ (sparesLeft s u ≠ ([], []) → Makes (.istDone .memRepaired) s fun t => t.ist.kind = 0 ∧ t.fget bistP istResult = 2
          ∧ t.evt.stat.getLsbD 70 = true ∧ t.evt.stat.getLsbD 26 = true)
        ∧ (sparesLeft s u = ([], []) → Makes (.istDone .memRepaired) s gone) ∧ Makes (.istDone .memFail) s gone)

/-! Memories and events (spec chapters 12 and 16) -/

/-- The code of R299 and the checker of R300: any single inverted bit of a byte's thirteen is corrected, any two are found uncorrectable. -/
def Obligations.SecDed : Prop :=
  ∀ (s : State) (a i j : Nat), i < 13 → j < 13 → s.chkErr a = 0 →
    (upset a (BitVec.ofNat 13 (2 ^ i)) s).fetch a = s.byte a ∧ eccOf ((upset a (BitVec.ofNat 13 (2 ^ i)) s).chkErr a) = .ce
      ∧ (i ≠ j → eccOf ((upset a (BitVec.ofNat 13 (2 ^ j)) (upset a (BitVec.ofNat 13 (2 ^ i)) s)).chkErr a) = .ue)

/-- The check bits of R299 with the positions of their code, and the decision of R300 from the stored byte and the stored check bits, with the byte that a read returns. -/
def Obligations.CheckBitsAndChecker : Prop :=
  (∀ d : BitVec 8,
    let c := BitVec.ofNat 5 (checkBits d.toNat)
    let x (i : Nat) : Bool := d.getLsbD i
    c.getLsbD 0 = xor (x 0) (xor (x 1) (xor (x 3) (xor (x 4) (x 6))))
      ∧ c.getLsbD 1 = xor (x 0) (xor (x 2) (xor (x 3) (xor (x 5) (x 6))))
      ∧ c.getLsbD 2 = xor (x 1) (xor (x 2) (xor (x 3) (x 7)))
      ∧ c.getLsbD 3 = xor (x 4) (xor (x 5) (xor (x 6) (x 7)))
      ∧ c.getLsbD 4 = xor (xor (x 0) (xor (x 1) (xor (x 2) (x 3)))) (xor (xor (x 4) (xor (x 5) (xor (x 6) (x 7))))
          (xor (c.getLsbD 0) (xor (c.getLsbD 1) (xor (c.getLsbD 2) (c.getLsbD 3))))))
  ∧ (List.range 13).map dataBitAt = [none, none, none, some 0, none, some 1, some 2, some 3, none, some 4, some 5, some 6, some 7]
  ∧ ∀ (s : State) (a : Nat),
    let d := s.byte a
    let stored := BitVec.ofNat 5 (checkBits d.toNat) ^^^ s.chkErr a
    let y := (stored ^^^ BitVec.ofNat 5 (checkBits d.toNat)).toNat % 16
    let p := ((List.range 8).map d.getLsbD ++ (List.range 5).map stored.getLsbD).foldl xor false
    let e := eccOf (s.chkErr a)
    (y = 0 → p = false → e = .ok ∧ s.fetch a = d)
      ∧ (y = 0 → p = true → e = .ce ∧ s.fetch a = d)
      ∧ (1 ≤ y → y ≤ 12 → p = true → e = .ce
        ∧ s.fetch a = (match dataBitAt y with | some i => d ^^^ BitVec.ofNat 8 (2 ^ i) | none => d))
      ∧ (13 ≤ y → p = true → e = .ue)
      ∧ (y ≠ 0 → p = false → e = .ue)
      ∧ ∀ n, s.isUe a n = true ↔ ∃ i, i < n ∧ eccOf (s.chkErr (a + i)) = .ue

/-- SCRUB_LINE and SCRUB_WRITE_BACK: a grant reads the line that an error has put first, else the next line of the pass over the blocks of the region that are powered and not beyond repair; a clean line moves the position alone, the last of a pass starts the next and shows its lateness; a correctable byte is noted and corrected only by the write-back, an uncorrectable word raises event 64 (R225, R302, R306, R307, R309, R315). LEAK_TICK takes 1 from each bucket, LEAK_T_WRITE holds at least 1, UE_CLEAR empties the log, FLIP_MASK_WRITE holds its 16 bits, and MEM_RELOADED ends the reload of one region with event 66, after which CLAMP follows the compensation codes (R233, R308, R311, R312, R315). -/
def Obligations.MemoryUpkeep : Prop :=
  (∀ (s : State) (r : Fin 7),
    let pos := kget 0 s.scrub r
    let first := s.scrubNext.find? (fun x => regionOf x.1 == r.val && scrubs s x.1)
    let due := scrubFrom s pos 0 (blocksOf r)
    (∀ m ∈ blocksOf r, ∀ line < blockLines m, (∀ k ∈ blocksOf r, blockLines k = blockLines m)
      ∧ scrubFrom s ((m - (blocksOf r).headD 0) * blockLines m + line) 0 (blocksOf r)
        = (if scrubs s m then some (m, line, (m - (blocksOf r).headD 0) * blockLines m + line + 1)
          else scrubFrom s ((m + 1 - (blocksOf r).headD 0) * blockLines m) 0 (blocksOf r)))
    ∧ (first = none → due = none → ∀ u late, Keeps (.scrubLine r u late) s)
    ∧ (∀ u late m line next, first = none → due = some (m, line, next) → Makes (.scrubLine r u late) s fun t =>
        kget 0 t.scrub r = (if (scrubFrom s next 0 (blocksOf r)).isSome then next else 0)
          ∧ ∀ k, k ≠ r.val → kget 0 t.scrub k = kget 0 s.scrub k)
    ∧ (∀ m line, line < blockLines m → (first = some (m, line) ∨ first = none ∧ ∃ next, due = some (m, line, next)) →
      let a := m * 65536 + line * lineBytes r
      let k := eccBytes r
      let clean (i n : Nat) : Prop := ∀ j < n, eccOf (s.chkErr (a + i + j)) = .ok
      let direct : Prop := (m ≠ saveWindow ∨ s.redirect = none) ∧ ¬ (s.ist.kind = 2 ∧ s.ist.unit = m)
      (∀ late, first ≠ none → clean 0 (lineBytes r) → exec (.scrubLine r [] late) s = .next { s with scrubNext := s.scrubNext.erase (m, line) })
        ∧ (∀ late next, first = none → due = some (m, line, next) → clean 0 (lineBytes r) →
          ((scrubFrom s next 0 (blocksOf r)).isSome = true → exec (.scrubLine r [] late) s = .next { s with scrub := kput 0 s.scrub r next })
          ∧ ((scrubFrom s next 0 (blocksOf r)).isSome = false → Makes (.scrubLine r [] late) s fun t =>
              t.flag memP (scrubLate r) = late ∧ (late = true → Raised 67 r s t) ∧ Frame [ra memP 0x0A4] (if late then [67] else []) s t))
        ∧ (∀ late i, i < lineBytes r → direct → (r ≠ 1 ∨ ctrAddr 0x100 ≤ a + i) → s.written (a + i) = true → eccOf (s.chkErr (a + i)) = .ce →
            (∀ w < lineBytes r / k, s.isUe (a + w * k) k = false) →
            Makes (.scrubLine r [] late) s fun t =>
              kget false t.ceSeen (a + i) = true ∧ t.byte (a + i) = s.byte (a + i) ∧ t.chkErr (a + i) = s.chkErr (a + i))
        ∧ (∀ late i, i < lineBytes r → s.ist.kind = 2 → s.ist.unit = m → (r ≠ 1 ∨ ctrAddr 0x100 ≤ a + i) → s.written (a + i) = true → eccOf (s.chkErr (a + i)) = .ce →
            Makes (.scrubLine r [] late) s fun t =>
              kget false t.ceSeen (a + i) = true ∧ t.byte (a + i) = s.byte (a + i) ∧ t.chkErr (a + i) = s.chkErr (a + i))
        ∧ (∀ late w, w < lineBytes r / k → direct → s.written (a + w * k) = true → s.isUe (a + w * k) k = true →
            (∀ v < lineBytes r / k, v ≠ w → clean (v * k) k) → ueLogged s m (line * lineBytes r / k + w) = false →
            Makes (.scrubLine r [] late) s fun t => ∃ i : Nat, Raised 64 (r.val + 8 * i) s t)
        ∧ (∀ late o (e : BitVec 13), o < lineBytes r → eccOf ((upset (a + o) e s).chkErr (a + o)) = .ce → clean 0 (lineBytes r) →
            direct → (r ≠ 1 ∨ ctrAddr 0x100 ≤ a + o) → s.written (a + o) = true →
            Makes (.scrubLine r [(o, e)] late) s fun t =>
              t.byte (a + o) = s.byte (a + o) ^^^ BitVec.ofNat 8 (e.toNat % 256) ∧ kget false t.ceSeen (a + o) = true))
    ∧ (∀ (m : Fin 176) (l : List Nat),
        let q := regionOf m
        let mine (x : Nat) : Bool := decide (x / 65536 = m.val ∧ x % 65536 ∈ l ∧ x % 65536 < blockBytes m) && kget false s.ceSeen x && eccOf (s.chkErr x) == .ce
        (scrubs s m = true → (∃ x, mine x = true) → Makes (.scrubWriteBack m l) s fun t =>
          (∀ x, mine x = true → t.byte x = s.fetch x ^^^ flipData s q ∧ t.chkErr x = flipCheck s q ∧ kget false t.ceSeen x = false)
            ∧ (∀ x, mine x = false → t.byte x = s.byte x ∧ t.chkErr x = s.chkErr x ∧ kget false t.ceSeen x = kget false s.ceSeen x)
            ∧ t.rd flipMask = (if flipActs s q then 0 else s.rd flipMask) ∧ (∀ y, y ≠ flipMask → t.rd y = s.rd y)
            ∧ t = { s with mem := t.mem, chk := t.chk, ceSeen := t.ceSeen, regs := t.regs })
        ∧ (scrubs s m = false ∨ (∀ x, mine x = false) → Keeps (.scrubWriteBack m l) s)))
  ∧ (∀ (s : State),
    (Makes .leakTick s fun t => (∀ r < 7, t.fget memP ⟨0x04C + 4 * r, 0, 8⟩ = s.fget memP ⟨0x04C + 4 * r, 0, 8⟩ - 1)
      ∧ OnlyRegs ((List.range 7).map (fun r => ra memP (0x04C + 4 * r))) s t)
    ∧ (∀ v : Word, Makes (.leakTWrite v) s fun t => t.rd (ra memP 0x048) = max 1 (v.toNat % 65536) ∧ OnlyRegs [ra memP 0x048] s t)
    ∧ (Makes .ueClear s fun t => (∀ i < 8, t.rd (ueLog i) = 0) ∧ t.rd (ra memP 0x090) = 0
        ∧ OnlyRegs (ra memP 0x090 :: (List.range 8).map ueLog) s t)
    ∧ (∀ v : Word, Makes (.flipMaskWrite v) s fun t => t.rd (ra memP 0x068) = v.toNat % 65536 ∧ OnlyRegs [ra memP 0x068] s t)
    ∧ (∀ region : Fin 7,
        let mine := s.memPend.filter (fun p => regionOf p.1 == region.val)
        (mine ≠ [] → Makes (.memReloaded region) s fun t =>
          (∃ l, t.memPend = s.memPend.filter (fun p => regionOf p.1 != region.val) ++ l ∧ ∀ p ∈ l, p.1 = 175)
            ∧ t.fget memP reloadRegion = region.val ∧ Raised 66 region s t
            ∧ (t.flag memP reloadBusy = true ↔ t.memPend ≠ [] ∨ s.seq.reload ≠ [])
            ∧ (flipActs s 6 = false → (∀ b < 40, ∀ i < 4, eccOf (s.chkErr (175 * 65536 + compOff 0 0 + 4 * b + i)) = .ok) →
              t.memPend = s.memPend.filter (fun p => regionOf p.1 != region.val) ∧ ∀ n : Lane, t.flag lasP (lbClamp n) = decide (t.fget lasP (lbMax n) < lbRaw t n))
            ∧ (region = 6 → flipActs s 6 = false → ∀ p ∈ mine, p.1 < 176 → p.2 < 16384 → ∀ i < 4,
                t.fetch (p.1 * 65536 + p.2 * 4 + i) = kget 0 s.sec.init (p.1 * 65536 + p.2 * 4 + i)))
        ∧ (mine = [] → Keeps (.memReloaded region) s)))

/-- EVT_STAT_CLEAR and EVT_FORCE: a clear reaches the named bits alone, an occurrence that meets it wins, and a forced source has an occurrence of DETAIL 0x7F (R385, R386, R389). LOG_GRANT, LOG_LO_READ and LOG_POP: a granted request leaves its queue and its entry is written with SEQ, event, DETAIL and TIME, or is lost where the log is full; the oldest entry is read in one snapshot, EMPTY_RD where there is none; a pop frees the entry read and no other (R390 to R393). -/
def Obligations.Events : Prop :=
  (∀ (s : State),
    (∀ (addr : BitVec 22) (v : Word),
      let named := eventsNamed addr.toNat v.toNat
      (isStatAddr addr.toNat = true → (Makes (.evtStatClear addr v []) s fun t =>
          (∀ e ∈ named, t.evt.stat.getLsbD e = false) ∧ (∀ e, e ∉ named → t.evt.stat.getLsbD e = s.evt.stat.getLsbD e)
            ∧ t = { s with evt := { s.evt with stat := t.evt.stat } })
        ∧ ∀ meets : List (Nat × Nat), Makes (.evtStatClear addr v meets) s fun t =>
            (∀ x ∈ meets, defined.getLsbD x.1 = true → t.evt.stat.getLsbD x.1 = true)
              ∧ (∀ a, sideReg a = false → t.rd a = s.rd a) ∧ t.lanes = s.lanes ∧ t.las = s.las)
      ∧ (∀ meets, isStatAddr addr.toNat = false → Keeps (.evtStatClear addr v meets) s))
    ∧ (∀ (p : BitVec 12) (v : Word),
        let named := eventsNamed (ra p.toNat 0x014) v.toNat
        Makes (.evtForce p v) s fun t => (∀ e ∈ named, t.evt.stat.getLsbD e = true) ∧ (∀ e, named = [e] → Raised e 0x7F s t) ∧ OnlyEvents named s t))
  ∧ (∀ (s : State),
    let e := s.evt
    let i := (e.head + e.unread) % 1024
    let oldest := ofLE (s.fetchN (174 * 65536 + 8 * e.head) 8)
    (∀ (ev : Fin 512) (r : EvReq), s.pwr.hkOn = true → grantable s ev = some r →
      (e.lossSince = 0 → e.unread < 1024 → Makes (.logGrant ev) s fun t =>
        t.evt.unread = e.unread + 1 ∧ t.evt.seq = (e.seq + 1) % 2 ^ 32 ∧ t.evt.head = e.head ∧ (∃ l, t.evt.queue = e.queue.erase r ++ l)
          ∧ (flipActs s 5 = false → ofLE (t.fetchN (174 * 65536 + 8 * i) 8) = logEntry e.seq r.ev r.detail (s.time.dtc.toNat / 65536))
          ∧ (∀ x, ctrBlock x = false → x < 174 * 65536 + 8 * i ∨ 174 * 65536 + 8 * i + 8 ≤ x → t.byte x = s.byte x)
          ∧ (blackboxEvent s ev = false → ∀ a, sideReg a = false → t.rd a = s.rd a))
      ∧ (0 < e.lossSince → e.unread + 1 < 1024 → (∀ x ∈ r.after, x < e.occ) → Makes (.logGrant ev) s fun t =>
        t.evt.unread = e.unread + 2 ∧ t.evt.seq = ((e.seq + 1) % 2 ^ 32 + 1) % 2 ^ 32 ∧ t.evt.head = e.head ∧ t.evt.stat.getLsbD 2 = true
          ∧ (∃ l, t.evt.queue = e.queue.erase r ++ l)
          ∧ (flipActs s 5 = false → ofLE (t.fetchN (174 * 65536 + 8 * i) 8) = logEntry e.seq 2 (min 127 e.lossSince) (s.time.dtc.toNat / 65536)
            ∧ ofLE (t.fetchN (174 * 65536 + 8 * ((e.head + (e.unread + 1)) % 1024)) 8)
              = logEntry ((e.seq + 1) % 2 ^ 32) r.ev r.detail (s.time.dtc.toNat / 65536)))
      ∧ (1024 ≤ e.unread → Makes (.logGrant ev) s fun t =>
        t.evt.unread = e.unread ∧ t.evt.seq = e.seq ∧ e.lossSince + 1 ≤ t.evt.lossSince ∧ (∃ l, t.evt.queue = e.queue.erase r ++ l)
          ∧ (blackboxEvent s ev = false → Frame [] [] s t)))
    ∧ (∀ ev : Fin 512, s.pwr.hkOn = true → grantable s ev = none → ev.val ∉ 4 :: sideEvents → 0 < e.lossSince → e.unread < 1024 → Makes (.logGrant ev) s fun t =>
        t.evt.unread = e.unread + 1 ∧ t.evt.stat.getLsbD 2 = true
          ∧ (flipActs s 5 = false → ofLE (t.fetchN (174 * 65536 + 8 * i) 8) = logEntry e.seq 2 (min 127 e.lossSince) (s.time.dtc.toNat / 65536)))
    ∧ (∀ ev : Fin 512, s.pwr.hkOn = false → Keeps (.logGrant ev) s)
    ∧ (∀ ev : Fin 512, e.lossSince = 0 → grantable s ev = none → Keeps (.logGrant ev) s)
    ∧ (e.unread = 0 → Makes .logLoRead s fun t => t.rd (ra evtP 0x048) = 0 ∧ t.rd (ra evtP 0x04C) = 0 ∧ t.flag evtP logEmpty = true
        ∧ OnlyRegs [ra evtP 0x044, ra evtP 0x048, ra evtP 0x04C] s t)
    ∧ (e.unread ≠ 0 → s.isUe (174 * 65536 + 8 * e.head) 8 = false → Makes .logLoRead s fun t =>
        t.rd (ra evtP 0x048) = oldest % 2 ^ 32 ∧ t.rd (ra evtP 0x04C) = oldest / 2 ^ 32 ∧ t.flag evtP logEmpty = false ∧ t.evt.snap = some e.head
          ∧ t.evt.unread = e.unread ∧ Frame [ra evtP 0x044, ra evtP 0x048, ra evtP 0x04C] [] s t)
    ∧ (e.unread ≠ 0 → s.isUe (174 * 65536 + 8 * e.head) 8 = true → Makes .logLoRead s fun t =>
        t.rd (ra evtP 0x048) = 0xEEEEEEEE ∧ t.rd (ra evtP 0x04C) = 0xEEEEEEEE ∧ t.evt.unread = e.unread ∧ t.evt.snap = some e.head
          ∧ t.rd (ra 0x006 0x044) = evtP + 0x048 * 2 ^ 12 + 4 * 2 ^ 22)
    ∧ (e.unread ≠ 0 → e.snap = some e.head →
        (e.lossSince = 0 → Makes .logPop s fun t => t.evt.unread = e.unread - 1 ∧ t.evt.head = (e.head + 1) % 1024 ∧ t.evt.snap = none
          ∧ t.evt.stat = e.stat ∧ t = { s with evt := t.evt })
        ∧ (0 < e.lossSince → e.unread ≤ 1024 → Makes .logPop s fun t => t.evt.unread = e.unread ∧ t.evt.head = (e.head + 1) % 1024
          ∧ t.evt.stat.getLsbD 2 = true))
    ∧ (e.unread = 0 ∨ e.snap ≠ some e.head → Makes .logPop s fun t =>
        t.rd (ra evtP 0x024) = evtP + 0x050 * 2 ^ 12 + 16 * 2 ^ 22 + 2 * 2 ^ 30 ∧ OnlyRegs [ra evtP 0x024] s t))

/-! Observability (spec chapters 16 and 17) -/

/-- OBS_SNAP, SNAP_DONE, OBS_ACK, VALUE_LO_READ and TRACE_POINT_TIMER: a snapshot of one point with its clear, a refused one, the read of a point in one access, LOCKED words, and POINT packets (R405, R408 to R412, R421). It rests on choices of the model, which are no rule of the spec: log entry 33. -/
def Obligations.StarMap : Prop :=
  ∀ (s : State),
    let base := s.fget obsP ⟨0x050, 0, 18⟩
    let cnt := clampN 1 4096 (s.fget obsP ⟨0x054, 0, 13⟩)
    let i := s.fget obsP obsIndex
    let r := (obsRead i s).1
    (∀ clr : Bool, s.flag obsP snapBusy = false → base + cnt ≤ 262144 → Makes (.obsSnap clr) s fun t =>
      t.flag obsP snapBusy = true ∧ t.flag obsP snapRefused = false ∧ t.fget obsP snapSeq = (s.fget obsP snapSeq + 1) % 65536
        ∧ t.obs.snapCnt = cnt ∧ t.obs.snapTs = s.time.dtc
        ∧ (cnt = 1 → flipActs s 1 = false →
            ofLE (t.fetchN (ctrAddr (snapWord 0)) 8) = (obsRead base s).1.pack
              ∧ (clr = true → (pointOf base).kind = 1 ∨ (pointOf base).kind = 2 → t.ctr base = 0))
        ∧ ((∀ e < cnt, (obsRead (base + e) s).2 = s) → flipActs s 1 = false → ∀ e < cnt,
            ofLE (t.fetchN (ctrAddr (snapWord e)) 8) = (obsRead (base + e) s).1.pack
              ∧ (clr = true → (pointOf (base + e)).kind = 1 ∨ (pointOf (base + e)).kind = 2 → t.ctr (base + e) = 0)))
    ∧ (∀ clr : Bool, s.flag obsP snapBusy = true ∨ 262144 < base + cnt → Makes (.obsSnap clr) s fun t =>
        t.flag obsP snapRefused = true ∧ t.rd (ra obsP 0x024) = obsP + 0x040 * 2 ^ 12 + 16 * 2 ^ 22 + 2 * 2 ^ 30
          ∧ OnlyRegs [ra obsP 0x024, ra obsP 0x058] s t)
    ∧ (Makes .snapDone s fun t => t.flag obsP snapBusy = false ∧ OnlyRegs [ra obsP 0x058] s t)
    ∧ (Makes .obsAck s fun t => i ∉ t.obs.restarted ∧ (∀ j, j ≠ i → (j ∈ t.obs.restarted ↔ j ∈ s.obs.restarted))
        ∧ t = { s with obs := { s.obs with restarted := t.obs.restarted } })
    ∧ (s.flag obsP obsBuf = false → Makes .valueLoRead s fun t =>
        t.rd (ra obsP 0x048) = r.value % 2 ^ 32 ∧ t.fget obsP ⟨0x04C, 0, 16⟩ = r.value / 2 ^ 32 % 65536
          ∧ t.fget obsP ⟨0x04C, 16, 3⟩ = r.kind % 8 ∧ t.fget obsP ⟨0x04C, 19, 3⟩ = r.status % 8)
    ∧ (∀ m w, s.flag obsP obsBuf = false → pointOf i = .word m w → s.sec.lock = true → Makes .valueLoRead s fun t =>
        t.rd (ra obsP 0x048) = 0 ∧ t.fget obsP ⟨0x04C, 0, 16⟩ = 0 ∧ t.fget obsP ⟨0x04C, 19, 3⟩ = 3 ∧ OnlyRegs [ra obsP 0x048, ra obsP 0x04C] s t)
    ∧ (s.flag obsP obsBuf = true → s.flag obsP snapBusy = true → Makes .valueLoRead s fun t =>
        t.rd (ra obsP 0x048) = 0 ∧ t.fget obsP ⟨0x04C, 19, 3⟩ = 5 ∧ OnlyRegs [ra obsP 0x048, ra obsP 0x04C] s t)
    ∧ (let e := i % 4096
       let w := ofLE (s.fetchN (ctrAddr (snapWord e)) 8)
       (s.flag obsP obsBuf = true → s.flag obsP snapBusy = false → s.obs.snapCnt ≤ e → Makes .valueLoRead s fun t =>
          t.rd (ra obsP 0x048) = 0 ∧ t.fget obsP ⟨0x04C, 19, 3⟩ = 4 ∧ OnlyRegs [ra obsP 0x048, ra obsP 0x04C] s t)
        ∧ (s.flag obsP obsBuf = true → s.flag obsP snapBusy = false → e < s.obs.snapCnt → s.isUe (ctrAddr (snapWord e)) 8 = false → Makes .valueLoRead s fun t =>
          t.rd (ra obsP 0x048) = w % 2 ^ 32 ∧ t.fget obsP ⟨0x04C, 0, 16⟩ = bits w 32 16 ∧ t.fget obsP ⟨0x04C, 16, 3⟩ = bits w 48 3
            ∧ t.fget obsP ⟨0x04C, 19, 3⟩ = bits w 51 3))
    ∧ (∀ j < 8,
        let w := s.rd (ra trcP (0x044 + 4 * j))
        let x := (obsRead (w % 2 ^ 18) s).1
        trcOn s 6 = true → trcDrives s = true → tb w 31 = true → (∀ k < 8, k ≠ j → tb (s.rd (ra trcP (0x044 + 4 * k))) 31 = false) →
          (x.status ≠ 3 → s.trc.ptq.length < 64 → Makes .tracePointTimer s fun t => ∃ p : BitVec 104, t.trc.ptq = s.trc.ptq ++ [p]
            ∧ p.toNat = w % 2 ^ 18 * 2 ^ 86 + x.status % 8 * 2 ^ 83 + x.value % 2 ^ 48 * 2 ^ 32 + trcTime s)
          ∧ (x.status ≠ 3 → 64 ≤ s.trc.ptq.length → Makes .tracePointTimer s fun t =>
            t.trc = { s.trc with lost3 := s.trc.lost3 + 1 } ∧ t.evt.stat.getLsbD 500 = true)
          ∧ (x.status = 3 → Keeps .tracePointTimer s))
    ∧ (trcOn s 6 = false ∨ trcDrives s = false → Keeps .tracePointTimer s)

/-- CAP_ARM, CAP_STOP, CAP_FORCE, CAP_TIMER_EXPIRY, CAP_DONE, CAP_BUFFER_HIGH and CAP_DATA_LO_READ: a new capture in S0, what ends one, the first trigger with its two records, a doubled D, and a record read whole (R415 to R418, R423). CONSTELLATION_TICK: a unit that captures nothing is left alone; of one sample, the state's condition A, and else B, decides the next state, its counters and its trigger, and each reduction makes its records (R413 to R417). It rests on choices of the model, which are no rule of the spec: log entry 34. -/
def Obligations.CapturesAndConstellations : Prop :=
  (∀ (s : State) (k : Fin 4),
    let p := capP k
    let c := s.caps[k]
    let st := s.fget p capStat
    (armBad k s = false → Makes (.capArm k) s fun t =>
      t.fget p capStat = 1 ∧ t.fget p capState = 0 ∧ t.flag p capRefused = false ∧ t.rd (ra p 0x0C4) = 0 ∧ t.rd (ra p 0x0C8) = 0 ∧ t.rd (ra p 0x0D8) = 0
        ∧ t.caps[k] = { live := srcLive k s } ∧ (flipActs s 1 = false → ∀ b < 256, t.ctr (0x400 + 256 * k + b) = 0)
        ∧ Frame [ra p 0x0C0, ra p 0x0C4, ra p 0x0C8, ra p 0x0D8] [] s t)
    ∧ (armBad k s = true → Makes (.capArm k) s fun t => t.flag p capRefused = true ∧ t.fget p capStat = st
        ∧ t.rd (ra p 0x024) = p + 0x040 * 2 ^ 12 + 19 * 2 ^ 22 + 2 * 2 ^ 30 ∧ OnlyRegs [ra p 0x0C0, ra p 0x024] s t)
    ∧ (st = 1 ∨ st = 2 → Makes (.capStop k) s fun t => t.fget p capStat = 3 ∧ t.caps[k].buf = [] ∧ t.caps[k].raw = []
        ∧ t.evt.stat.getLsbD (485 + 4 * k) = true ∧ (∀ a, a / 1024 ≠ p → sideReg a = false → t.rd a = s.rd a)
        ∧ (∀ x, 128 * 65536 ≤ x → ctrBlock x = false → t.byte x = s.byte x))
    ∧ (st ≠ 1 → st ≠ 2 → Keeps (.capStop k) s)
    ∧ (st = 1 → c.triggered = false → s.flag p capSkewOk = false → Makes (.capForce k) s fun t =>
        t.fget p capStat = 2 ∧ t.caps[k].triggered = true ∧ t.fget p capState = s.fget p capState
          ∧ t.caps[k].buf = c.buf ++ [BitVec.ofNat 64 (0xE * 2 ^ 60 + s.fget p capState * 2 ^ 48 + c.pos % 2 ^ 48), s.time.dtc]
          ∧ Raised (484 + 4 * k) (s.fget p capState) s t ∧ Frame [ra p 0x0C0] [484 + 4 * k] s t)
    ∧ (st = 1 → c.triggered = false → s.flag p capSkewOk = true → Makes (.capForce k) s fun t =>
        t.fget p capStat = 2 ∧ t.caps[k].triggered = true ∧ t.fget p capState = s.fget p capState
          ∧ (∃ d, t.caps[k].buf = c.buf ++ [BitVec.ofNat 64 (0xE * 2 ^ 60 + s.fget p capState * 2 ^ 48 + c.pos % 2 ^ 48), d])
          ∧ Raised (484 + 4 * k) (s.fget p capState) s t ∧ Frame [ra p 0x0C0] [484 + 4 * k] s t)
    ∧ (st ≠ 1 ∨ c.triggered = true → Keeps (.capForce k) s)
    ∧ (∀ second : Bool,
        let tm (x : CapSt) : Nat := if second then x.tmr1 else x.tmr0
        (capRuns k s = true → Makes (.capTimerExpiry k second) s fun t => tm t.caps[k] = (if tm c = 1 then 2 else tm c)
          ∧ t = s.setCap k (fun _ => t.caps[k]))
        ∧ (capRuns k s = false → Keeps (.capTimerExpiry k second) s))
    ∧ (capComplete k s = true → Makes (.capDone k) s fun t => t.fget p capStat = 3 ∧ Raised (485 + 4 * k) 0 s t ∧ Frame [ra p 0x0C0] [485 + 4 * k] s t)
    ∧ (capComplete k s = false → Keeps (.capDone k) s)
    ∧ (capRuns k s = true → 192 < c.buf.length → tb (s.rd (ra p 0x048)) 0 = true →
        (c.raw = [] → capD k s < 2 ^ 24 → Makes (.capBufferHigh k) s fun t => t.caps[k].rate = c.rate + 1 ∧ t.flag p capHalved = true
          ∧ t.caps[k].buf.length = c.buf.length + 1 ∧ Raised (486 + 4 * k) (c.rate + 1) s t ∧ Frame [ra p 0x0C0] [486 + 4 * k] s t)
        ∧ (c.raw ≠ [] → Makes (.capBufferHigh k) s fun t => t = s.setCap k (fun x => { x with rateWait := true })))
    ∧ (capRuns k s = true → 192 < c.buf.length → tb (s.rd (ra p 0x048)) 0 = true → c.raw = [] → 2 ^ 24 ≤ capD k s →
        Makes (.capBufferHigh k) s fun t => t = s.setCap k (fun x => { x with rateWait := false }))
    ∧ (c.buf.length ≤ 192 ∨ capRuns k s = false ∨ tb (s.rd (ra p 0x048)) 0 = false → Keeps (.capBufferHigh k) s)
    ∧ (let i := s.fget p ⟨0x0CC, 0, 18⟩
       let a := s.window ((32 * k + i / 8192) * 65536 + 8 * (i % 8192))
       (s.isUe a 8 = false → Makes (.capDataLoRead k) s fun t =>
          t.rd (ra p 0x0D0) = ofLE (s.fetchN a 8) % 2 ^ 32 ∧ t.rd (ra p 0x0D4) = ofLE (s.fetchN a 8) / 2 ^ 32
            ∧ Frame [ra p 0x0D0, ra p 0x0D4] [] s t)
        ∧ (s.isUe a 8 = true → Makes (.capDataLoRead k) s fun t => t.rd (ra p 0x0D0) = 0xEEEEEEEE ∧ t.rd (ra p 0x0D4) = 0xEEEEEEEE
          ∧ t.rd (ra 0x006 0x044) = p + 0x0D0 * 2 ^ 12 + 4 * 2 ^ 22)))
  ∧ (∀ (s : State) (k : Fin 4) (pps : Bool),
    let p := capP k
    let c := s.caps[k]
    let st := s.fget p capState
    let a := capCond k st false s
    let b := capCond k st true s
    (∀ l, capRuns k s = false → Keeps (.constellationTick k l pps) s)
    ∧ (∀ (x : CapSample) (more : List CapSample), capRuns k s = true → srcLive k s = true → c.live = true → c.started = true →
        c.feed = x :: more → s.rd (ra p 0x048) % 16 = 0 →
        let thr := sx 16 (s.rd (ra p 0x054))
        let seen : TickSeen := { ge := decide (thr ≤ x.v), lt := decide (x.v < thr) }
        Makes (.constellationTick k 1 pps) s fun t =>
          t.caps[k].pos = c.pos + 1 ∧ t.caps[k].feed = more
            ∧ (condTrue k a seen pps s = true → t.fget p capState = bits a 14 3
                ∧ (tb a 17 = true → t.caps[k].cnt0 = min (2 ^ 32 - 1) (c.cnt0 + 1)) ∧ (tb a 17 = false → t.caps[k].cnt0 = c.cnt0)
                ∧ (tb a 21 = true → t.caps[k].triggered = true)
                ∧ (tb a 21 = true → c.triggered = false → t.evt.stat.getLsbD (484 + 4 * k) = true))
            ∧ (condTrue k a seen pps s = false → condTrue k b seen pps s = true → t.fget p capState = bits b 14 3)
            ∧ (condTrue k a seen pps s = false → condTrue k b seen pps s = false → t.fget p capState = st ∧ t.caps[k].triggered = c.triggered)
            ∧ (∀ r, r / 1024 ≠ p → sideReg r = false → t.rd r = s.rd r))
    ∧ (∀ (x : CapSample) (more : List CapSample), capRuns k s = true → srcLive k s = true → c.live = true → c.started = true →
        c.feed = x :: more → c.buf = [] →
        let red := s.rd (ra p 0x048)
        let kind := (capSrc k s).1
        let w := (rawForm kind).1
        let m := (rawForm kind).2
        let i := s.fget p capWptr
        let to_ := (32 * k + i / 8192) * 65536 + 8 * (i % 8192)
        let full := c.raw ++ [enc2 w x.v]
        let len := 2 ^ (6 + bits red 4 4)
        let j := 0x400 + 256 * k + histBin kind x.v
        (red % 16 = 1 → 0 < c.rawWait → Makes (.constellationTick k 1 pps) s fun t => t.caps[k].raw = c.raw ∧ t.caps[k].rawWait = c.rawWait - 1)
        ∧ (red % 16 = 1 → c.rawWait = 0 → full.length < m → Makes (.constellationTick k 1 pps) s fun t =>
            t.caps[k].raw = full ∧ t.caps[k].rawWait = capD k s - 1)
        ∧ (red % 16 = 1 → c.rawWait = 0 → full.length = m → m < 16 → c.rateWait = false → flipActs s 0 = false → Makes (.constellationTick k 1 pps) s fun t =>
            t.caps[k].raw = [] ∧ ofLE (t.fetchN to_ 8)
              = (2 ^ 60 + m * 2 ^ 56 + (full.zip (List.range m)).foldl (fun z y => z + y.1 * 2 ^ (w * y.2)) 0) % 2 ^ 64)
        ∧ (red % 16 = 2 → len = c.mmmN + 1 → flipActs s 0 = false → Makes (.constellationTick k 1 pps) s fun t =>
            t.caps[k].mmmN = 0 ∧ ofLE (t.fetchN to_ 8)
              = (2 * 2 ^ 60 + enc2 16 (min x.v c.mmmMin) * 2 ^ 44 + enc2 16 (max c.mmmMax x.v) * 2 ^ 28 + enc2 28 (roundHalfUp (16 * (c.mmmSum + x.v)) len)) % 2 ^ 64)
        ∧ (red % 16 = 4 → c.histN + 1 < 2 ^ (10 + bits red 8 5) → j ∉ s.obs.invalid → (∀ b < 8, eccOf (s.chkErr (ctrAddr j + b)) = .ok) →
            s.ctr j + 1 < 2 ^ 48 → flipActs s 1 = false → Makes (.constellationTick k 1 pps) s fun t =>
              t.ctr j = s.ctr j + 1 ∧ t.caps[k].histN = c.histN + 1))
    ∧ (∀ (x : CapSample) (more : List CapSample), capRuns k s = true → srcLive k s = true → c.live = true → c.started = false →
        c.feed = x :: more → c.buf = [] → flipActs s 0 = false →
        let i := s.fget p capWptr
        Makes (.constellationTick k 1 pps) s fun t => t.caps[k].started = true
          ∧ ofLE (t.fetchN ((32 * k + i / 8192) * 65536 + 8 * (i % 8192)) 8) = 0xD * 2 ^ 60)
    ∧ (∀ l, capRuns k s = true → srcLive k s = false → Makes (.constellationTick k l pps) s fun t => t.caps[k].live = false ∧ t.caps[k].feed = [])
    ∧ (∀ l, capRuns k s = true → srcLive k s = false → c.live = false → c.feed = [] → c.buf = [] → c.dropped = 0 →
        condTrue k a {} pps s = false → condTrue k b {} pps s = false → Keeps (.constellationTick k l pps) s))

/-! Engines and the scheduler (spec chapter 7) -/

/-- The arithmetic of word steps: on all 24-bit words, ADD and SUB wrap or saturate with V, S and C as R186 and R189 give them, the logical opcodes act on the bits, shifts move them, and MIN and MAX choose (R186, R189). It rests on choices of the model, which are no rule of the spec: log entry 5. -/
def Obligations.EngineArithmetic : Prop :=
  ∀ (f : StepWord) (x y : BitVec 24),
    let word (o : Op) (sat : Bool) : BitVec 24 := BitVec.ofInt 24 (fit 24 sat (alu o false f x.toInt y.toInt 0).val).1
    let carry (o : Op) : Option Bool := (alu o false f x.toInt y.toInt 0).carry
    let leaves (o : Op) : Bool := (fit 24 false (alu o false f x.toInt y.toInt 0).val).2.1
    word .add false = x + y ∧ carry .add = some (decide (2 ^ 24 ≤ x.toNat + y.toNat)) ∧ leaves .add = x.saddOverflow y
      ∧ (x.saddOverflow y = true → word .add true = if x.msb then BitVec.intMin 24 else BitVec.intMax 24)
      ∧ word .sub false = x - y ∧ carry .sub = some (decide (x.toNat < y.toNat)) ∧ leaves .sub = x.ssubOverflow y
      ∧ word .and false = x &&& y ∧ word .or false = x ||| y ∧ word .xor false = x ^^^ y
      ∧ word .min false = (if y.slt x then y else x) ∧ carry .min = some (y.slt x)
      ∧ word .max false = (if x.slt y then y else x) ∧ carry .max = some (x.slt y)
      ∧ word .mov false = x
      ∧ word .shl false = x <<< shiftCount f y.toInt
      ∧ (24 ≤ shiftCount f y.toInt → ∀ sat, fit 24 sat (alu .shl false f x.toInt y.toInt 0).val = (0, false, false))
      ∧ word .shr false = (if f.mode then x.sshiftRight (shiftCount f y.toInt) else x >>> shiftCount f y.toInt)

/-- The IMM source, extended as the opcode asks, and the post-modify of the selected generators, which moves PTR within its circular buffer (R181, R187, R191). -/
def Obligations.OperandRules : Prop :=
  ∀ (s : State) (e : Eng),
    (∀ (o : Op) (f : StepWord), f.imm < 65536 →
      (readSrc e o f .imm s).st = s
        ∧ (readSrc e o f .imm s).val = (if o ∈ [Op.and, .or, .xor, .shl, .shr] then (f.imm : Int) else (BitVec.ofNat 16 f.imm).toInt)
        ∧ (f.imm = 0xFFFF → (readSrc e .and f .imm s).val = 0x00FFFF ∧ (readSrc e .add f .imm s).val = -1))
    ∧ (∀ (i : Fin 8) (code : Nat), code < 4 →
      let g := s.eng[e].ag[i]
      let delta : Int := nth 0 [0, 1, -1, g.md.toInt] code
      let offset := (g.ptr - g.base).toNat
      let length := if g.len = 0 then 8192 else g.len.toNat
      let x := (postMod e i code none s).eng[e].ag[i]
      x.ptr = BitVec.ofInt 13 (if offset < length then (g.base.toNat : Int) + Int.emod ((offset : Int) + delta) (length : Int) else (g.ptr.toNat : Int) + delta)
        ∧ x.md = g.md ∧ x.base = g.base ∧ x.len = g.len ∧ ∀ j : Fin 8, j ≠ i → (postMod e i code none s).eng[e].ag[j] = s.eng[e].ag[j])
    ∧ (∀ f : StepWord, ∀ i : Fin 8,
      (f.xGen = i.val → (endStep e f none s).eng[e].ag[i] = (postMod e i (f.xag % 4) none s).eng[e].ag[i])
        ∧ (f.yGen = i.val → (endStep e f none s).eng[e].ag[i] = (postMod e i (f.yag % 4) none s).eng[e].ag[i]))

/-- The computing steps, after the posted writes have been accepted: the result in its destination, Z, N, V, S and C, PC and the count; MINX and MAXX replace their pair; a destination outside the opcode's classes, or an uncorrectable source, ends the run with event 145 (R183, R186 to R190, R193, R197). It rests on choices of the model, which are no rule of the spec: log entry 48. -/
def Obligations.EngineComputing : Prop :=
  ∀ (s : State) (e : Eng) (w : StepWord) (o : Op) (c : Instr),
    (o, c) ∈ [(Op.mpy, Instr.stepMpy e), (.mac, .stepMac e), (.msu, .stepMsu e), (.add, .stepAdd e), (.sub, .stepSub e), (.min, .stepMin e),
      (.max, .stepMax e), (.minx, .stepMinx e), (.maxx, .stepMaxx e), (.shl, .stepShl e), (.shr, .stepShr e), (.and, .stepAnd e),
      (.or, .stepOr e), (.xor, .stepXor e), (.mov, .stepMov e)] →
    let u := acceptAll e s
    (s.eng[e].wq = [] → u = s)
    ∧ (s.eng[e].phase ≠ .running → Keeps c s)
    ∧ (engRuns s e = true → AtStep u e o w →
      (∀ d, dstOf w.dst = some d → opTakes o d = true →
        let l := sourcesOf o d w
        let a := readIf e o w l (srcOf w.srcA) u
        let b := readIf e o w l (srcOf w.srcB) a.st
        let r := alu o d.isAcc w a.val b.val (accOf u.eng[e] d)
        let x := fit (if d.isAcc then 56 else 24) w.sat r.val
        (a.ue = true ∨ b.ue = true → Makes c s fun t => t.eng[e].phase = .idle ∧ t.evt.stat.getLsbD 145 = true)
        ∧ (a.ue = false → b.ue = false → o ≠ .minx → o ≠ .maxx → Makes c s fun t =>
          StepEnds e u t
            ∧ (∀ i, d = .t i → t.eng[e].t[(Fin.ofNat 8 i)] = BitVec.ofInt 24 x.1)
            ∧ (d = .acc 0 → t.eng[e].acc0 = BitVec.ofInt 56 x.1 ∧ t.eng[e].acc1 = u.eng[e].acc1)
            ∧ (d = .acc 1 → t.eng[e].acc1 = BitVec.ofInt 56 x.1 ∧ t.eng[e].acc0 = u.eng[e].acc0)
            ∧ (∀ y : Bool, d = (if y then .ymem else .xmem) → flipActs u 4 = false →
                ofLE (t.fetchN (engWord e y (agPtr u e (if y then w.yGen else w.xGen))) 3) = enc2 24 x.1)
            ∧ (∀ g, d = .ptr g → t.eng[e].ag[(Fin.ofNat 8 g)].ptr = BitVec.ofInt 13 r.val)
            ∧ (∀ g, d = .md g → t.eng[e].ag[(Fin.ofNat 8 g)].md = BitVec.ofInt 13 r.val)
            ∧ (∀ g, d = .base g → t.eng[e].ag[(Fin.ofNat 8 g)].base = BitVec.ofInt 13 r.val)
            ∧ (∀ g, d = .len g → t.eng[e].ag[(Fin.ofNat 8 g)].len = BitVec.ofInt 13 r.val)
            ∧ (d = .flg → t.eng[e].flg = BitVec.ofInt 5 r.val)
            ∧ (d = .none ∨ d = .xmem ∨ d = .ymem ∨ d.isAcc = true ∨ (∃ i, d = .t i) →
                t.eng[e].flg.getLsbD 0 = decide (x.1 = 0) ∧ t.eng[e].flg.getLsbD 1 = decide (x.1 < 0)
                  ∧ t.eng[e].flg.getLsbD 2 = (u.eng[e].flg.getLsbD 2 || a.v || b.v || x.2.1)
                  ∧ t.eng[e].flg.getLsbD 3 = (u.eng[e].flg.getLsbD 3 || a.sat || b.sat || x.2.2))
            ∧ (∀ k, r.carry = some k → t.eng[e].flg.getLsbD 4 = k)
            ∧ (r.carry = none → d ≠ .flg → t.eng[e].flg.getLsbD 4 = u.eng[e].flg.getLsbD 4)
            ∧ (∀ j : Fin 8, d ≠ .t j.val → t.eng[e].t[j] = u.eng[e].t[j])
            ∧ (∀ g : Eng, g ≠ e → t.eng[g] = u.eng[g])
            ∧ (∀ k, sideReg k = false → t.rd k = u.rd k) ∧ t.lanes = u.lanes ∧ t.las = u.las)
        ∧ (a.ue = false → b.ue = false → o = .minx ∨ o = .maxx → ∀ i, d = .t i → Makes c s fun t =>
          let rep := replaces o w a.val (u.eng[e].t[(Fin.ofNat 8 i)]).toInt
          StepEnds e u t ∧ t.eng[e].flg.getLsbD 4 = rep
            ∧ t.eng[e].t[(Fin.ofNat 8 i)] = (if rep then BitVec.ofInt 24 a.val else u.eng[e].t[(Fin.ofNat 8 i)])
            ∧ t.eng[e].t[(Fin.ofNat 8 (i + 1))] = (if rep then BitVec.ofInt 24 b.val else u.eng[e].t[(Fin.ofNat 8 (i + 1))])))
      ∧ ((∀ d, dstOf w.dst = some d → opTakes o d = false) → Makes c s fun t => t.eng[e].phase = .idle ∧ t.evt.stat.getLsbD 145 = true))

/-- LD, its data's return, ST, the entry that frees for it, BR, BRC, WAIT with its ends, SIG, END and the watchdog; every step but ST runs once the posted writes have been accepted, and an accumulator that is a source is narrowed by SH, by nothing in ST and SIG (R182, R185, R188, R189, R192 to R195, R197, R199, R201, R229). It rests on choices of the model, which are no rule of the spec: log entries 48 and 83. -/
def Obligations.EngineControl : Prop :=
  ∀ (s : State) (e : Eng) (w : StepWord),
    let g := s.eng[e]
    let u := acceptAll e s
    let h := u.eng[e]
    let at_ (o : Op) : Prop := engRuns s e = true ∧ AtStep u e o w
    let setPhase (x : EngPhase) (v : State) : State := v.setEng e (fun k => { k with phase := x })
    let value (a : SrcVal) : Word := BitVec.ofNat 32 (enc2 24 a.val * 2 ^ (8 * w.bsh))
    let faulted (t : State) : Prop := t.eng[e].phase = .idle ∧ t.evt.stat.getLsbD 145 = true
    (g.wq = [] → u = s)
    ∧ (∀ (o : Op) (f : StepWord), f.sat = true →
      let acc := s.eng[e].acc0.toInt
      let sh : Nat := if o = .st ∨ o = .sig then 0 else min 55 f.sh
      let n : Int := if sh = 0 then acc else (acc + 2 ^ (sh - 1)) / 2 ^ sh
      let r := readSrc e o f (.acc 0) s
      r.val = max (-8388608) (min 8388607 n) ∧ r.v = decide (n < -8388608 ∨ 8388607 < n) ∧ r.sat = r.v ∧ r.st = s)
    ∧ (at_ .ld →
        ((∃ d, dstOf w.dst = some d ∧ d.isWord = true) →
          let r := busRead .sheet (sheetAddr h w) u
          r.2.eng[e].phase = .running → Makes (.stepLd e) s fun t => t = setPhase (.loading (BitVec.ofNat 32 r.1)) r.2)
        ∧ ((∀ d, dstOf w.dst = some d → d.isWord = false) → Makes (.stepLd e) s faulted))
    ∧ (∀ v d, g.phase = .loading v → stepAt s e = w → dstOf w.dst = some d → Makes (.ldDataReturn e) s fun t =>
        let x : Nat := v.toNat / 2 ^ (8 * w.bsh)
        StepEnds e s t ∧ (∀ i, d = .t i → t.eng[e].t[(Fin.ofNat 8 i)] = BitVec.ofNat 24 x)
          ∧ (∀ y : Bool, d = (if y then .ymem else .xmem) → flipActs s 4 = false →
              ofLE (t.fetchN (engWord e y (agPtr s e (if y then w.yGen else w.xGen))) 3) = x % 2 ^ 24)
          ∧ (∀ i, d = .ptr i → t.eng[e].ag[(Fin.ofNat 8 i)].ptr = BitVec.ofNat 13 x) ∧ (∀ i, d = .md i → t.eng[e].ag[(Fin.ofNat 8 i)].md = BitVec.ofNat 13 x)
          ∧ (∀ i, d = .base i → t.eng[e].ag[(Fin.ofNat 8 i)].base = BitVec.ofNat 13 x) ∧ (∀ i, d = .len i → t.eng[e].ag[(Fin.ofNat 8 i)].len = BitVec.ofNat 13 x))
    ∧ ((∀ v, g.phase ≠ .loading v) → Keeps (.ldDataReturn e) s)
    ∧ (AtStep s e .st w →
        let a := readSrc e .st w (srcOf w.dst) s
        (w.dst < 16 → a.ue = false → g.wq.length < 8 → Makes (.stepSt e) s fun t =>
          StepEnds e s t ∧ t.eng[e].wq = g.wq ++ [(sheetAddr g w, value a)])
        ∧ (w.dst < 16 → a.ue = false → 8 ≤ g.wq.length → Makes (.stepSt e) s fun t => t = setPhase .stFull a.st)
        ∧ (16 ≤ w.dst ∨ a.ue = true → Makes (.stepSt e) s faulted))
    ∧ (g.phase = .stFull →
        let v := if 8 ≤ g.wq.length then acceptFront e s else s
        let a := readSrc e .st w (srcOf w.dst) (setPhase .running v)
        v.eng[e].phase = .stFull → stepAt v e = w → w.dst < 16 → a.ue = false → v.eng[e].wq.length < 8 → Makes (.stQueueFree e) s fun t =>
          StepEnds e v t ∧ t.eng[e].wq = v.eng[e].wq ++ [(sheetAddr v.eng[e] w, value a)])
    ∧ (g.phase ≠ .stFull → Keeps (.stQueueFree e) s)
    ∧ (at_ .br → Makes (.stepBr e) s fun t =>
        t.eng[e].pc = w.imm % 32768 ∧ t.eng[e].steps = h.steps + 1 ∧ t.eng[e].phase = .running ∧ t.eng[e].flg = h.flg)
    ∧ (at_ .brc → Makes (.stepBrc e) s fun t =>
        t.eng[e].pc = (if condHolds w.cond h.flg then w.imm % 32768 else (h.pc + 1) % 32768) ∧ t.eng[e].steps = h.steps + 1
          ∧ t.eng[e].phase = .running ∧ t.eng[e].flg = h.flg)
    ∧ (at_ .wait →
        (waitKnown w.sig = true → u.seq.drain = 0 → waitLevel u w.sig = true → Makes (.stepWait e) s fun t =>
          StepEnds e u t ∧ t.eng[e].flg = setC h.flg false)
        ∧ (waitKnown w.sig = true → u.seq.drain ≠ 0 ∨ (waitLevel u w.sig = false ∧ w.imm = 0) → Makes (.stepWait e) s fun t =>
          StepEnds e u t ∧ t.eng[e].flg = setC h.flg true)
        ∧ (waitKnown w.sig = true → u.seq.drain = 0 → waitLevel u w.sig = false → w.imm ≠ 0 → Makes (.stepWait e) s fun t =>
          t.eng[e].phase = .waiting w.sig ∧ t.eng[e].pc = (h.pc + 1) % 32768 ∧ t.eng[e].flg = h.flg)
        ∧ (waitKnown w.sig = false → Makes (.stepWait e) s faulted))
    ∧ (∀ x, g.phase = .waiting x →
        (x ≠ 0x10 → ¬ (2 ≤ x ∧ x ≤ 5) → x < 0x20 ∨ waitLevel s x = true → Makes (.waitSource e) s fun t =>
          t = s.setEng e (fun k => { k with phase := .running, flg := setC k.flg false }))
        ∧ (x = 0x10 ∨ (2 ≤ x ∧ x ≤ 5) ∨ (0x20 ≤ x ∧ waitLevel s x = false) → Keeps (.waitSource e) s)
        ∧ (Makes (.waitTimeout e) s fun t => t = s.setEng e (fun k => { k with phase := .running, flg := setC k.flg true })))
    ∧ ((∀ x, g.phase ≠ .waiting x) → Keeps (.waitSource e) s ∧ Keeps (.waitTimeout e) s)
    ∧ (at_ .sig →
        (w.sig < 4 → Makes (.stepSig e) s fun t => StepEnds e u t
          ∧ (∀ n : Lane, u.fget adacP ⟨0x0A0, 2 * n, 2⟩ = w.sig → t.las[n].held = BitVec.ofNat 16 (u.rd (ra adacP (0x040 + 4 * n))))
          ∧ ∀ k : Eng, u.eng[k].phase = .waiting (2 + w.sig) → t.eng[k].phase = .running ∧ t.eng[k].flg = setC u.eng[k].flg false)
        ∧ (0x40 ≤ w.sig → w.sig < 0x80 → Makes (.stepSig e) s fun t => StepEnds e u t
          ∧ ∀ b, boundTo u 7 (w.sig - 0x40) = [b] → tb (u.dirOf (bits (u.rd (bindAddr b)) 0 8)) 31 = true → ∃ q ∈ t.seq.queue, q.bind = b)
        ∧ (0x80 ≤ w.sig → w.sig < 0x88 →
            let a := readSrc e .sig w (srcOf w.srcA) u
            (a.ue = false → Makes (.stepSig e) s fun t => StepEnds e u t ∧ t.eng[e].sigs = h.sigs + 1
              ∧ (h.skip ≤ h.sigs → Raised (152 + (w.sig - 0x80)) (enc2 7 a.val) u t))
            ∧ (a.ue = true → Makes (.stepSig e) s faulted))
        ∧ ((4 ≤ w.sig ∧ w.sig < 0x40) ∨ 0x88 ≤ w.sig → Makes (.stepSig e) s faulted))
    ∧ (at_ .end_ → h.bind < 64 → Makes (.stepEnd e) s fun t =>
        t.eng[e].phase = .idle ∧ t.eng[e].pc = h.pc ∧ t.fget seqP (bindFail h.bind) = 0)
    ∧ (g.phase ≠ .idle → 65536 ≤ g.steps → Makes (.engWdog e) s fun t => t.eng[e].phase = .idle ∧ Raised 144 e s t)
    ∧ (g.phase = .idle ∨ g.steps < 65536 → Keeps (.engWdog e) s)

/-- HOST_CMD, SEQ_TIMER_EXPIRY, TMR_WRITE, REQUEST_DISPATCH (what counting has triggered is queued first), REQUEST_PROMOTION, DRAIN_TIMEOUT, ENG_ABORT, ENG_EN_WRITE and SHEET_RELOAD_DONE: triggers make requests and merge them, a dispatch starts the run of R177, and what stops runs (R177, R197, R200 to R204, R313). It rests on choices of the model, which are no rule of the spec: log entry 19. -/
def Obligations.Scheduler : Prop :=
  ∀ (s : State),
    let bound (num : Nat) (src : Nat) (c : Instr) : Prop :=
      (boundTo s src num = [] → Keeps c s)
      ∧ (∀ b, boundTo s src num = [b] →
          let v := s.rd (bindAddr b)
          let valid := tb (s.dirOf (bits v 0 8)) 31 = true
          let held := ∃ q ∈ s.seq.queue, q.bind = b
          let req : SeqReq := { bind := b, sheet := bits v 0 8, inst := bits v 8 4, prio := min (bits v 25 2) 2, sys := tb v 27 }
          let clean (j : Nat) : Prop := ∀ i < 8, eccOf (s.chkErr (ctrAddr j + i)) = .ok
          (valid → ¬ held → Makes c s fun t => (∃ l, t.seq.queue = s.seq.queue ++ l ∧ req ∈ l ∧ ∀ q ∈ l, q.bind = b → q = req)
            ∧ (clean (0x80 + 2 * b) → t.seq.queue = s.seq.queue ++ [req]) ∧ OnlyEvents [] s t)
          ∧ (valid → held → Makes c s fun t => (∃ l, t.seq.queue = s.seq.queue ++ l ∧ ∀ q ∈ l, q.bind ≠ b)
            ∧ (clean (0x80 + 2 * b) → clean (0x81 + 2 * b) → t.seq.queue = s.seq.queue) ∧ OnlyEvents [] s t)
          ∧ (¬ valid → Makes c s fun t => t.evt.stat.getLsbD 145 = true ∧ OnlyEvents [] s t))
    (∀ code : BitVec 9, bound code.toNat 6 (.hostCmd code))
    ∧ (∀ k : Fin 16, (s.rd (ra seqP (0x060 + 4 * k)) ≠ 0 → bound k.val 1 (.seqTimerExpiry k))
        ∧ (s.rd (ra seqP (0x060 + 4 * k)) = 0 → Keeps (.seqTimerExpiry k) s)
        ∧ ∀ v : Word, Makes (.tmrWrite k v) s fun t => t.rd (ra seqP (0x060 + 4 * k)) = v.toNat % 2 ^ 24 ∧ OnlyRegs [ra seqP (0x060 + 4 * k)] s t)
    ∧ (let u := fireNext s
       (s.seq.fired = [] → u = s)
        ∧ (∀ b, s.seq.fired = [b] → tb (s.dirOf (bits (s.rd (bindAddr b)) 0 8)) 31 = true → ∃ q ∈ u.seq.queue, q.bind = b)
        ∧ (∀ r e, u.seq.drain = 0 → nextReq u = some (r, e) →
          (tb (u.dirOf r.sheet) 31 = true → Makes .requestDispatch s fun t =>
            t.eng[e] = u.eng[e].start r (bits (u.dirOf r.sheet) 0 15) ∧ (∃ l, t.seq.queue = u.seq.queue.erase r ++ l)
              ∧ ∀ f : Eng, f ≠ e → t.eng[f] = u.eng[f])
          ∧ (tb (u.dirOf r.sheet) 31 = false → Makes .requestDispatch s fun t => t.eng = u.eng ∧ t.evt.stat.getLsbD 145 = true))
        ∧ (u.seq.drain ≠ 0 ∨ nextReq u = none → exec .requestDispatch s = .next u))
    ∧ (∀ i r, s.fget seqP seqAge ≠ 0 → s.seq.queue[i]? = some r → Makes (.requestPromotion i) s fun t =>
        t.seq.queue[i]? = some { r with prio := r.prio - 1 } ∧ (∀ j, j ≠ i → t.seq.queue[j]? = s.seq.queue[j]?)
          ∧ t = { s with seq := { s.seq with queue := t.seq.queue } })
    ∧ (∀ i, s.fget seqP seqAge = 0 → Keeps (.requestPromotion i) s)
    ∧ (s.seq.drain ≠ 0 → Makes .drainTimeout s fun t => (∀ e : Eng, t.eng[e].phase = .idle)
        ∧ ((∃ e : Eng, s.eng[e].phase ≠ .idle) → t.evt.stat.getLsbD 145 = true))
    ∧ (s.seq.drain = 0 → Keeps .drainTimeout s)
    ∧ (∀ e : Eng, (s.eng[e].phase ≠ .idle → Makes (.engAbort e) s fun t =>
          t.eng[e].phase = .idle ∧ t.evt.stat.getLsbD 145 = true ∧ ∀ f : Eng, f ≠ e → t.eng[f] = s.eng[f])
        ∧ (s.eng[e].phase = .idle → Keeps (.engAbort e) s)
        ∧ ∀ on : Bool, (e ≠ 4 → Makes (.engEnWrite e on) s fun t => t.flag (engP e) engEn = on ∧ OnlyRegs [ra (engP e) 0x040] s t)
            ∧ (e = 4 → Keeps (.engEnWrite e on) s))
    ∧ (∀ (sheet : Byte) (ok : Bool),
        let sh := sheet.toNat
        ((∀ x ∈ s.seq.reload, x.1 ≠ sh) ∨ s.nv.hold = true → Keeps (.sheetReloadDone sheet ok) s)
        ∧ (∀ runs, s.nv.hold = false → s.seq.reload.find? (fun x => x.1 == sh) = some (sh, runs) →
            ((ok = false ∨ reloadImage s sh = none) → Makes (.sheetReloadDone sheet ok) s fun t =>
              tb (t.dirOf sh) 31 = false ∧ t.flag memP reloadFail = true ∧ t.evt.stat.getLsbD 66 = true ∧ ∀ x ∈ t.seq.reload, x.1 ≠ sh)
            ∧ (∀ img, ok = true → reloadImage s sh = some img → Makes (.sheetReloadDone sheet ok) s fun t =>
              let steps := sheetSteps img (bits (s.dirOf sh) 0 15) (bits (s.dirOf sh) 15 15)
              (flipActs s 3 = false → (∀ p ∈ steps, p.2.length = 8) → (∀ p ∈ steps, ∀ q ∈ steps, p.1 = q.1 → p = q) →
                  ∀ p ∈ steps, t.fetchN (160 * 65536 + 8 * p.1) 8 = p.2)
                ∧ (∃ l, t.seq.queue = runs ++ s.seq.queue ++ l) ∧ t.flag memP reloadFail = false ∧ t.evt.stat.getLsbD 66 = true
                ∧ t.seq.dir = s.seq.dir ∧ ∀ x ∈ t.seq.reload, x.1 ≠ sh)))

/-! The watermark modem and flares (spec chapter 11) -/

/-- A watermark frame on its way: WMK_SEND queues it with the next SEQ or is refused; the lowest class that waits goes first, only responses under HOLD; its symbols; BUSY and DONE at its end; CAP and LAT frames replace one that waits (R276, R277, R278, R283, R285 to R287). -/
def Obligations.WatermarkSending : Prop :=
  ∀ (s : State) (n : Lane),
    let w := s.wmk[n]
    let p := wmkP n
    let off := s.flag p wmkBusy || s.ffget p wmkTxEn != 1 || s.flag p wmkHold
    let ctl := s.rd (ra p 0x040)
    (off = true → Makes (.wmkSend n) s fun t => t.flag p wmkRefused = true ∧ OnlyRegs [ra p 0x054] s t)
    ∧ (off = false → Makes (.wmkSend n) s fun t =>
      t.flag p wmkBusy = true ∧ t.flag p wmkRefused = false ∧ t.fget p wmkSeq = w.seq % 256 ∧ t.wmk[n].seq = (w.seq + 1) % 256
        ∧ t.wmk[n].queue = w.queue ++ [{ cls := 1, typ := s.fget p ⟨0x050, 0, 4⟩, seq := w.seq, payload := txPayload s n }]
        ∧ (∀ m : Lane, m ≠ n → t.wmk[m] = s.wmk[m]) ∧ OnlyRegs [ra p 0x054] { s with wmk := t.wmk } t)
    ∧ (∀ f, wmkNext s n = some f → f ∈ w.queue ∧ (s.flag p wmkHold = true → f.cls = 0)
        ∧ (s.flag p wmkHold = false → ∀ g ∈ w.queue, g.cls < 4 → f.cls ≤ g.cls) ∧ (w.queue.filter (fun g => g.cls == f.cls)).head? = some f
        ∧ (wmkSymbols n f).length = 268 + 16 * f.payload.length)
    ∧ (w.sending = none → w.flareOn = false → w.flareWait = false → s.ffget p wmkTxEn = 1 → s.running n = true →
      (∀ f, wmkNext s n = some f → Makes (.wmkFrameStart n) s fun t =>
        t.wmk[n].sending = some f ∧ t.wmk[n].queue = w.queue.erase f ∧ t.wmk[n].syms = wmkSymbols n f ∧ t.wmk[n].base % 2 = 0
          ∧ wmkIndex s n w.pos < t.wmk[n].base ∧ t.wmk[n].base ≤ wmkIndex s n w.pos + 2 ∧ t.flag p wmkInTx = true
          ∧ OnlyRegs [ra p 0x04C] { s with wmk := t.wmk } t)
      ∧ (wmkNext s n = none → Keeps (.wmkFrameStart n) s))
    ∧ (w.sending.isSome = true ∨ w.flareOn = true ∨ w.flareWait = true ∨ s.ffget p wmkTxEn ≠ 1 ∨ s.running n = false → Keeps (.wmkFrameStart n) s)
    ∧ (∀ f, w.sending = some f → Makes (.wmkFrameSent n) s fun t =>
      t.wmk[n].sending = none ∧ t.wmk[n].syms = [] ∧ t.flag p wmkInTx = false
        ∧ (f.cls = 1 → t.flag p wmkBusy = false ∧ t.wmk[n].doneNew = true)
        ∧ (f.cls ≠ 1 → t.flag p wmkBusy = s.flag p wmkBusy ∧ t.wmk[n].doneNew = w.doneNew)
        ∧ (w.flareWait = true → s.fget lasP (lbState n) = 1 → t.wmk[n].flareOn = true ∧ t.wmk[n].flareWait = false)
        ∧ Frame [ra p 0x04C, ra p 0x054] [] s t)
    ∧ (w.sending = none → Keeps (.wmkFrameSent n) s)
    ∧ (tb ctl 9 = true → Makes (.capTimer n) s fun t =>
      t.wmk[n].queue = w.queue.filter (fun f => f.cls != 3) ++ [{ cls := 3, typ := 5, seq := w.seq, payload := capPayload s n }]
        ∧ t.wmk[n].seq = (w.seq + 1) % 256 ∧ t = s.setWmk n (fun _ => t.wmk[n]))
    ∧ (tb ctl 9 = false → Keeps (.capTimer n) s)
    ∧ (tb ctl 10 = true → Makes (.latTimer n) s fun t =>
      t.wmk[n].queue = w.queue.filter (fun f => f.cls != 2) ++ [{ cls := 2, typ := 6, seq := w.seq, payload := latPayload s n }]
        ∧ t.wmk[n].seq = (w.seq + 1) % 256 ∧ t = s.setWmk n (fun _ => t.wmk[n]))
    ∧ (tb ctl 10 = false → Keeps (.latTimer n) s)

/-- A frame that a lane sends arrives whole: from its symbols, in which the correlator sees no other sync, and 35 more bits of the code's trellis, the receiver finds its header and payload and nothing else (R276, R277, R278, R281). It rests on choices of the model, which are no rule of the spec: log entry 26. -/
def Obligations.WatermarkDecoding : Prop :=
  ∀ (m : Lane) (f : WmkFrame) (after : List Bool) (tol : Nat) (x : WmkRx),
    let h := BitVec.ofNat 32 (wmkHeader m f)
    let l := wmkSymbols m f ++ convEnc 0 after
    f.typ < 16 → 1 ≤ f.typ → f.typ ≤ 7 → 1 ≤ f.payload.length → f.payload.length ≤ 256 → after.length = 35 →
    x.syms = none → x.hdr = none → x.tail = none →
    (∀ i < l.length, syncSeen tol (rxScan tol (l.take (i + 1)) x).1.reg = decide (i = 95)) →
    (rxScan tol l x).2 = [.frame { hdr := h, payload := f.payload }]
      ∧ (rxScan tol l x).1.syms = none ∧ (rxScan tol l x).1.hdr = none ∧ (rxScan tol l x).1.tail = none

/-- Watermark frames as their symbols arrive: lock and its loss, receptions that fail a check and their counters, CAP and LAT frames into FAR_CAP and FAR_LAT, responses and USER frames into a receive slot, its release, and requests with the status of each response (R279 to R286, R295). It rests on choices of the model, which are no rule of the spec: log entry 26. -/
def Obligations.WatermarkReception : Prop :=
  ∀ (s : State) (n : Lane) (sym : List Bool),
    let w := s.wmk[n]
    let p := wmkP n
    let all := tb (s.rd (ra p 0x040)) 11
    let ready := demodOn s n = true ∧ s.flag p wmkFlareRx = false
    let x := rxScan (s.fget p ⟨0x044, 0, 3⟩) sym w.rx
    let heard := (s.setWmk n (fun v => { v with rx := x.1 })).setFlag p wmkInRx x.1.busy
    let counts (j : Nat) (t : State) : Prop :=
      let c := cWmk n j
      s.pwr.coreOn = true → c ∉ s.obs.invalid → (∀ i < 8, eccOf (s.chkErr (ctrAddr c + i)) = .ok) → s.ctr c + 1 < 2 ^ 48 → flipActs s 1 = false →
        t.ctr c = s.ctr c + 1
    (∀ peak, demodOn s n = true → Makes (.wmkLock n peak) s fun t =>
      t.flag p wmkLockF = true ∧ t.fget p ⟨0x04C, 16, 12⟩ = peak.toNat ∧ (s.flag p wmkLockF = true → t.wmk = s.wmk)
        ∧ (s.flag p wmkLockF = false → tb (s.rd (ra p 0x040)) 9 = true → ∃ g ∈ t.wmk[n].queue, g.typ = 5 ∧ g.payload = capPayload s n)
        ∧ OnlyRegs [ra p 0x04C] { s with wmk := t.wmk } t)
    ∧ (∀ peak, demodOn s n = false → Keeps (.wmkLock n peak) s)
    ∧ Makes (.wmkLockLoss n) s (fun t => t.flag p wmkLockF = false ∧ t.flag p wmkInRx = false ∧ t.fget p ⟨0x04C, 16, 12⟩ = 0 ∧ t.wmk[n].rx = {}
        ∧ OnlyRegs [ra p 0x04C] { s with wmk := t.wmk } t)
    ∧ (∀ c ∈ [Instr.capFrame n sym, .latFrame n sym, .wmkSlotFrame n sym, .readReq n sym, .writeReq n sym],
      (demodOn s n = false ∨ s.flag p wmkFlareRx = true → Keeps c s)
      ∧ (ready → x.2 = [] → exec c s = .next heard)
      ∧ (ready → ∀ e, x.2 = [e] → ∀ j, (e = .falseSync ∧ j = 2) ∨ (e = .hdrErr ∧ j = 3) ∨ (e = .crcErr ∧ j = 4) ∨ (e = .typeErr ∧ j = 5) →
          Makes c s fun t => t.wmk = heard.wmk ∧ t.flag p wmkInRx = x.1.busy ∧ counts j t ∧ Frame [ra p 0x04C] [] s t)
      ∧ (ready → ∀ f : WmkSlot, x.2 = [.frame f] →
        let y := rxTyp f
        let resp (typ : Nat) (l : List Byte) : WmkFrame := { cls := 0, typ := typ, seq := bits f.hdr.toNat 12 8, payload := l }
        let q (i : Nat) : Byte := nth 0 f.payload i
        let req := [q 1, q 2, q 3]
        let range (len : Nat) : Bool := reqRange (q 0) (q 1) (q 2) (q 3) && f.payload.length == len
        let alone := tb (s.rd (ra 0x000 0x050)) 0
        (y = 5 → Makes c s fun t => t.rd (ra p 0x070) = le4 f.payload 0 ∧ t.rd (ra p 0x074) = le4 f.payload 4
          ∧ (all = false → t.wmk = heard.wmk) ∧ (all = true → w.slots.length < 2 → t.wmk[n].slots = w.slots ++ [f]) ∧ counts 1 t
          ∧ Frame [ra p 0x04C, ra p 0x060, ra p 0x070, ra p 0x074] [evWmk n 0, evWmk n 1] s t)
        ∧ (y = 6 → Makes c s fun t => t.rd (ra p 0x078) = be4 f.payload 0 ∧ t.rd (ra p 0x07C) = be4 f.payload 4
          ∧ t.rd (ra p 0x080) = be4 f.payload 8 ∧ t.fget p ⟨0x084, 16, 16⟩ = (s.fget p ⟨0x084, 16, 16⟩ + 1) % 65536
          ∧ t.fget p ⟨0x084, 0, 16⟩ = ofLE ((f.payload.drop 12).take 2) ∧ counts 1 t
          ∧ Frame [ra p 0x04C, ra p 0x060, ra p 0x078, ra p 0x07C, ra p 0x080, ra p 0x084] [evWmk n 0, evWmk n 1] s t)
        ∧ (y = 2 ∨ y = 4 ∨ y = 7 → Makes c s fun t =>
          (w.slots.length < 2 → t.wmk[n].slots = w.slots ++ [f] ∧ Raised (evWmk n 0) y s t)
            ∧ (2 ≤ w.slots.length → t.wmk[n].slots = w.slots ∧ Raised (evWmk n 1) y s t) ∧ counts 1 t
            ∧ Frame [ra p 0x04C, ra p 0x060] [evWmk n 0, evWmk n 1] s t)
        ∧ (y = 1 →
          (frontUp s = false → Makes c s fun t => t.wmk[n].queue = w.queue ++ [resp 2 (3 :: req)])
          ∧ (frontUp s = true → range 4 = false → Makes c s fun t => t.wmk[n].queue = w.queue ++ [resp 2 (1 :: req)])
          ∧ (frontUp s = true → range 4 = true → tb (s.rd (ra p 0x040)) 7 = false → Makes c s fun t =>
            t.wmk[n].queue = w.queue ++ [resp 2 (2 :: req)] ∧ Frame [ra p 0x04C, ra p 0x060] [evWmk n 0, evWmk n 1] s t)
          ∧ (frontUp s = true → range 4 = true → tb (s.rd (ra p 0x040)) 7 = true → Makes c s fun t =>
            let l := (reqRead (q 0) (q 1) (q 2) (q 3) (addCtr (cWmk n 1) 1 heard)).1
            l.length = (q 3).toNat ∧ t.wmk[n].queue.getLast? = some (resp 2 (0 :: req ++ l))))
        ∧ (y = 3 →
          let len := 4 + (q 3).toNat
          (frontUp s = false → Makes c s fun t => t.wmk[n].queue = w.queue ++ [resp 4 (3 :: req)])
          ∧ (frontUp s = true → range len = false → Makes c s fun t => t.wmk[n].queue = w.queue ++ [resp 4 (1 :: req)])
          ∧ (frontUp s = true → range len = true → tb (s.rd (ra p 0x040)) 8 = false ∨ alone = true ∨ reqWritable (q 0) (q 1) (q 2) (q 3) = false → Makes c s fun t =>
            t.wmk[n].queue = w.queue ++ [resp 4 (2 :: req)] ∧ Frame [ra p 0x04C, ra p 0x060] [evWmk n 0, evWmk n 1] s t)
          ∧ (frontUp s = true → range len = true → tb (s.rd (ra p 0x040)) 8 = true → alone = false → reqWritable (q 0) (q 1) (q 2) (q 3) = true →
            Makes c s fun t => t.wmk[n].queue.getLast? = some (resp 4 (0 :: req))
              ∧ ((q 3).toNat = 1 → 118 ≤ (q 2).toNat → (q 2).toNat < 126 → cmisByte t (q 2).toNat = q 4)))))
    ∧ Makes (.rxRelease n) s (fun t => t.wmk[n].slots = w.slots.drop 1 ∧ t.flag p ⟨0x060, 24, 1⟩ = decide (1 < w.slots.length)
        ∧ OnlyRegs [ra p 0x060] { s with wmk := t.wmk } t)

/-- Flares: sending with RESULT and COPIES, the beacon of a lane in dusk, a crossing with its guard, the end of a reception with the LOCATE echo, HOLD and its expiry, the decoding of qualifiers with up to two errors, and acceptance at the second reception within 50 ms (R288 to R293, R326). It rests on choices of the model, which are no rule of the spec: log entry 52. -/
def Obligations.Flares : Prop :=
  (∀ c < 4, ∀ i < 17, ∀ j < 17, qualCode ((qualifier c ^^^ 2 ^ i ^^^ 2 ^ j) % 65536) = some c)
  ∧ ∀ (s : State) (n : Lane),
    let w := s.wmk[n]
    let p := wmkP n
    let off := s.fget lasP (lbState n) ≠ 1 ∨ s.flag p wmkHold = true ∨ s.flag p flareBusy = true
    let begins (code : Nat) (t : State) : Prop :=
      t.flag p flareBusy = true ∧ t.fget p flareResult = 0 ∧ t.fget p flareCopies = 0 ∧ t.wmk[n].flareCode = code
        ∧ (w.sending = none → t.wmk[n].flareOn = true ∧ t.wmk[n].flareWait = false ∧ t.wmk[n].frozen = lbValue s n)
        ∧ (w.sending.isSome = true → t.wmk[n].flareOn = w.flareOn ∧ t.wmk[n].flareWait = true)
    let armed := s.flag p flareRxEn = true ∧ s.pwr.hkOn = true ∧ ∃ v d, w.vref = some (v, d) ∧ 0 < v
    (off → Makes (.flareSend n) s fun t => t.fget p flareResult = 2 ∧ OnlyRegs [ra p 0x098] s t)
    ∧ (¬ off → Makes (.flareSend n) s fun t => begins (s.fget p ⟨0x098, 0, 2⟩) t ∧ OnlyRegs [ra p 0x098] { s with wmk := t.wmk } t)
    ∧ (∀ copies, s.flag p flareBusy = true → w.flareWait = false →
      let k := min 7 copies
      Makes (.flareTxEnd n copies) s fun t => t.flag p flareBusy = false ∧ t.wmk[n].flareOn = false
        ∧ (w.flareOn = true → t.fget p flareResult = 1 ∧ t.fget p flareCopies = 8 ∧ Raised (evWmk n 3) 33 s t)
        ∧ (w.flareOn = false → t.fget p flareResult = 3 ∧ t.fget p flareCopies = k ∧ Raised (evWmk n 3) (3 + 4 * k) s t)
        ∧ Frame [ra p 0x098] [evWmk n 3] s t)
    ∧ (∀ copies, s.flag p flareBusy = false ∨ w.flareWait = true → Keeps (.flareTxEnd n copies) s)
    ∧ (s.flag pwrP (pwrDusk n) = true → s.flag pwrP ⟨0x05C, 0, 1⟩ = true → ¬ off → Makes (.duskBeacon n) s fun t =>
      begins 0 t ∧ OnlyRegs [ra p 0x098] { s with wmk := t.wmk } t)
    ∧ (s.flag pwrP (pwrDusk n) = false ∨ s.flag pwrP ⟨0x05C, 0, 1⟩ = false ∨ off → Keeps (.duskBeacon n) s)
    ∧ (armed → s.flag p wmkFlareRx = false → Makes (.flareCrossing n) s fun t =>
      t.flag p wmkFlareRx = true ∧ t.flag p wmkInRx = false ∧ t.wmk[n].rx = {} ∧ t.lanes[n].fig = s.lanes[n].fig.gradDrop ∧ (hkUp s 0 = true → s.hk[(0 : Fin 2)].run = none → w.guardOut = false → t.hk[(0 : Fin 2)].run.isSome = true)
        ∧ Frame ([ra p 0x04C, ra 0x060 0x08C, ra 0x060 0x1F4] ++ calRegs n) [467, 468] s t)
    ∧ (¬ armed ∨ s.flag p wmkFlareRx = true → Keeps (.flareCrossing n) s)
    ∧ (s.flag p wmkFlareRx = true → Makes (.flareRxClear n) s fun t =>
      t.flag p wmkFlareRx = false ∧ t.wmk[n].echo = false ∧ (w.echo = true → ¬ off → t.flag p flareBusy = true ∧ t.wmk[n].flareCode = 1)
        ∧ Frame ([ra p 0x04C, ra p 0x098] ++ calRegs n) [] s t)
    ∧ (s.flag p wmkFlareRx = false → Keeps (.flareRxClear n) s)
    ∧ Makes (.holdExpiry n) s (fun t => t.flag p wmkHold = false ∧ OnlyRegs [ra p 0x04C] s t)
    ∧ (∀ code c, code < 4 → c < 2 ^ 48 → tb (s.rd (ra p 0x090)) (10 + code) = true →
      let t := flareQualified n code c s
      let acc := kget 0 w.lastAcc code
      let qual := kget 0 w.lastQual code
      (∀ k, k ≠ code → kget 0 t.wmk[n].lastAcc k = kget 0 w.lastAcc k ∧ kget 0 t.wmk[n].lastQual k = kget 0 w.lastQual k)
        ∧ (acc = 0 → ∀ t0, qual = t0 + 1 → t0 ≤ c → c ≤ t0 + 7812500 →
          kget 0 t.wmk[n].lastAcc code = c + 1 ∧ kget 0 t.wmk[n].lastQual code = 0 ∧ Raised (evWmk n 2) code s t
            ∧ (code = 0 → t.flag p ⟨0x09C, 0, 1⟩ = true) ∧ (code = 1 → t.flag p ⟨0x09C, 1, 1⟩ = true) ∧ (code = 2 → t.flag p ⟨0x09C, 2, 1⟩ = true)
            ∧ (code = 3 → t.flag p wmkHold = true))
        ∧ (acc = 0 → qual = 0 → kget 0 t.wmk[n].lastAcc code = 0 ∧ kget 0 t.wmk[n].lastQual code = c + 1)
        ∧ (∀ t0, acc = t0 + 1 → t0 ≤ c → c < t0 + 15625000 → t.wmk = s.wmk))

/-! Reams, security and the NV store (spec chapter 18) -/

/-- Fuses and attestation: ROLL_ADV, KEY_PROG, KEY_REVOKE and OBS_LOCK are refused without the key and the conditions of R438 or start a blow; a blow read back takes force at once with event 101, ROLL_ADV going on to the next fuse of its counter, one that reads unblown ends FAILED and changes no fuse; ATTEST, which waits for the end of DL_ACTIVATE, the signed report, and ID_READY (R436 to R441, R446). It rests on choices of the model, which are no rule of the spec: log entry 37. -/
def Obligations.FusesAndAttestation : Prop :=
  ∀ (s : State),
    let stat := ra secP 0x054
    let refused (cmd : Nat) (t : State) : Prop :=
      t.rd (ra secP 0x024) = secP + 0x050 * 2 ^ 12 + 19 * 2 ^ 22 + 2 ^ 31
        ∧ (s.flag secP cmdBusy = false → t.fget secP cmdResult = 2 ∧ t.fget secP cmdLast = cmd) ∧ (s.flag secP cmdBusy = true → t.rd stat = s.rd stat)
        ∧ OnlyRegs [ra secP 0x024, stat] s t
    let blows (cmd slot : Nat) (t : State) : Prop :=
      t.flag secP cmdBusy = true ∧ t.fget secP cmdResult = 0 ∧ t.fget secP cmdCause = 0 ∧ t.fget secP cmdLast = cmd ∧ t.sec.blow = some ⟨cmd, slot⟩
        ∧ t.sec = { s.sec with blow := t.sec.blow, keys := t.sec.keys } ∧ OnlyRegs [stat] { s with sec := t.sec } t
    let ended (r : Nat) (t : State) : Prop := t.flag secP cmdBusy = false ∧ t.fget secP cmdResult = r
    (∀ u : BitVec 16,
      (fuseOk s u.toNat = false → Makes (.rollAdv u) s (refused 2) ∧ Makes (.obsLock u) s (refused 5)
        ∧ ∀ k, Makes (.keyProg u k) s (refused 3) ∧ Makes (.keyRevoke u k) s (refused 4))
      ∧ (fuseOk s u.toNat = true →
        (s.sec.baseRoll ≤ s.sec.rollF → Makes (.rollAdv u) s fun t => ended 1 t ∧ OnlyRegs [stat] s t)
        ∧ (s.sec.rollF < s.sec.baseRoll → Makes (.rollAdv u) s fun t => blows 2 0 t ∧ t.sec.keys = s.sec.keys)
        ∧ (Makes (.obsLock u) s fun t => blows 5 0 t ∧ t.sec.keys = s.sec.keys)
        ∧ ∀ k : BitVec 2,
          (k = 0 ∨ s.sec.progd.getLsbD k.toNat = true → Makes (.keyProg u k) s (refused 3))
          ∧ (k = 0 → Makes (.keyRevoke u k) s (refused 4))
          ∧ (k ≠ 0 → s.sec.progd.getLsbD k.toNat = false → Makes (.keyProg u k) s fun t => blows 3 k.toNat t
              ∧ ∀ i < 64, kget 0 t.sec.keys (64 * k.toNat + i) = nth 0 (regBytes s 0x0A0 16) i)
          ∧ (k ≠ 0 → Makes (.keyRevoke u k) s fun t => blows 4 k.toNat t ∧ t.sec.keys = s.sec.keys)))
    ∧ (∀ ok, s.sec.blow = none → Keeps (.fuseBlowDone ok) s)
    ∧ (∀ b, s.sec.blow = some b →
      let kind := if b.cmd = 2 then 3 else if b.cmd = 3 then 0 else if b.cmd = 4 then 1 else 2
      (Makes (.fuseBlowDone false) s fun t => ended 3 t ∧ t.sec = { s.sec with blow := none } ∧ OnlyRegs [stat] { s with sec := t.sec } t)
      ∧ (b.cmd = 2 → Makes (.fuseBlowDone true) s fun t =>
        let f := max s.sec.rollF (min 64 (s.sec.rollF + 1))
        t.sec.rollF = f ∧ FusesKept s.sec t.sec ∧ Raised 101 (b.slot + 12) s t
          ∧ (f < min 64 s.sec.baseRoll → t.sec.blow = some b ∧ t.rd stat = s.rd stat ∧ Frame [ra secP 0x040] [101] s t)
          ∧ (min 64 s.sec.baseRoll ≤ f → ended 1 t ∧ t.sec.blow = none ∧ Raised 100 f s t ∧ Frame [ra secP 0x040, stat] [100, 101] s t))
      ∧ (b.cmd ≠ 2 → Makes (.fuseBlowDone true) s fun t => ended 1 t ∧ FusesKept s.sec t.sec ∧ t.sec.blow = none
        ∧ (b.cmd = 3 → t.sec.progd = s.sec.progd ||| BitVec.ofNat 4 (2 ^ b.slot))
        ∧ (b.cmd = 4 → t.sec.revoked = s.sec.revoked ||| BitVec.ofNat 4 (2 ^ b.slot))
        ∧ (b.cmd = 5 → t.sec.lock = true)
        ∧ Raised 101 (b.slot + 4 * kind) s t ∧ (b.cmd ≠ 5 → Frame [ra secP 0x040, stat] [101] s t)))
    ∧ (s.sec.actRun = true → Makes .attest s fun t => t = { s with sec := { s.sec with attWait := true } })
    ∧ (s.sec.actRun = false → s.flag secP cmdBusy = true → Makes .attest s (refused 1))
    ∧ (s.sec.actRun = false → s.flag secP cmdBusy = false → Makes .attest s fun t =>
      t.flag secP cmdBusy = true ∧ t.fget secP cmdResult = 0 ∧ t.fget secP cmdLast = 1 ∧ OnlyRegs [stat] { s with sec := t.sec } t
        ∧ (s.flag secP idReadyF = false → t.sec.attWait = true ∧ t.sec.attBody = s.sec.attBody)
        ∧ (s.flag secP idReadyF = true → t.sec.attWait = false ∧ ∃ b, t.sec.attBody = some b ∧ b.take 4 = bytesBE 4 0x41545331
            ∧ (b.drop 8).take 32 = regBytes s 0x060 8))
    ∧ (∀ salt, s.sec.attBody = none → Keeps (.attestDone salt) s)
    ∧ (∀ salt b, s.sec.attBody = some b → Makes (.attestDone salt) s fun t => ended 1 t ∧ t.sec.attBody = none
        ∧ t.sec.report = b ++ idSign s b salt ∧ t.sec.signed = (s.sec.signed + 1) % 65536
        ∧ OnlyRegs [stat] { s with sec := t.sec } t)
    ∧ (s.boot.ready = true → s.pwr.coreOn = true → s.flag secP idReadyF = false → Makes .idReady s fun t =>
      t.flag secP idReadyF = true ∧ Raised 102 0 s t ∧ (s.sec.attWait = true → s.sec.actRun = false → t.sec.attBody.isSome = true) ∧ Frame [ra secP 0x040] [102] s t)
    ∧ (s.boot.ready = false ∨ s.pwr.coreOn = false ∨ s.flag secP idReadyF = true → Keeps .idReady s)

/-- The download buffer and its commands: DL_DATA stores and advances, taking CAP0; DL_VERIFY gives the cause of the first failing check or the kind; DL_PROGRAM erases a slot that is not in force and writes the image with its header; DL_ACTIVATE takes a base Ream; DL_ABORT; SET_PREF (R431, R434, R435, R443, R446). It rests on choices of the model, which are no rule of the spec: log entry 35. -/
def Obligations.DownloadCommands : Prop :=
  ∀ (s : State),
    let stat := ra secP 0x054
    let busy := s.flag secP cmdBusy
    let refused (cmd : Nat) (t : State) : Prop :=
      t.rd (ra secP 0x024) = secP + 0x050 * 2 ^ 12 + 19 * 2 ^ 22 + 2 ^ 31 ∧ (busy = false → t.fget secP cmdResult = 2 ∧ t.fget secP cmdLast = cmd)
        ∧ OnlyRegs [ra secP 0x024, stat] s t
    let begun (cmd : Nat) (t : State) : Prop := t.flag secP cmdBusy = true ∧ t.fget secP cmdResult = 0 ∧ t.fget secP cmdLast = cmd
    let ended (cmd r : Nat) (t : State) : Prop := t.flag secP cmdBusy = false ∧ t.fget secP cmdResult = r ∧ t.fget secP cmdLast = cmd
    let free := s.sec.progSlot = none ∧ s.sec.actRun = false ∧ s.pwr.coreOn = true
    let img := dlImage s
    (∀ v, free → Makes (.dlDataWrite v) s fun t =>
      t.sec = { s.sec with dlTaken := true, verified := none } ∧ t.fget secP dlAddr = (s.fget secP dlAddr + 1) % 2 ^ 19
        ∧ (flipActs s 0 = false → t.fetchN (4 * s.fget secP dlAddr) 4 = bytesBE 4 v.toNat)
        ∧ (∀ a, a / 1024 ≠ secP → a / 1024 ≠ capP 0 → sideReg a = false → t.rd a = s.rd a))
    ∧ (∀ v, ¬ free → Makes (.dlDataWrite v) s fun t => t.rd (ra secP 0x024) = secP + 0x05C * 2 ^ 12 + 17 * 2 ^ 22 + 2 ^ 31 ∧ OnlyRegs [ra secP 0x024] s t)
    ∧ (busy = true ∨ s.pwr.coreOn = false → Makes .dlVerify s (refused 6) ∧ (∀ k, Makes (.dlProgram k) s (refused 8)) ∧ Makes .dlActivate s (refused 7))
    ∧ (busy = true → Makes .dlAbort s (refused 9) ∧ ∀ k, Makes (.setPref k) s (refused 10))
    ∧ (busy = false → s.pwr.coreOn = true →
      (Makes .dlVerify s fun t =>
        match reamCause s (imgKind img == 2) (s.rd (ra secP 0x048)) img with
        | some c => ended 6 3 t ∧ t.fget secP cmdCause = c % 16 ∧ t.sec = { s.sec with verified := none } ∧ Raised 99 c s t ∧ Raised 96 (48 + c) s t
            ∧ (flipActs s 0 = false → Frame [stat] [96, 99] s t)
        | none => ended 6 1 t ∧ t.sec = { s.sec with verified := some (if imgKind img = 2 then 2 else 1) } ∧ Raised 98 6 s t
            ∧ (flipActs s 0 = false → Frame [stat] [98] s t))
      ∧ (∀ k : BitVec 2, (s.sec.verified = none ∨ 2 ≤ k.toNat ∨ s.fget secP bootSlot = k.toNat → Makes (.dlProgram k) s (refused 8))
        ∧ (s.sec.verified.isSome = true → k.toNat < 2 → s.fget secP bootSlot ≠ k.toNat → Makes (.dlProgram k) s fun t =>
          begun 8 t ∧ t.sec.progSlot = some k.toNat
            ∧ (∀ a, flashByte t a = if slotBase k.toNat ≤ a ∧ a < slotBase k.toNat + 0x200000 then 0xFF#8 else flashByte s a)
            ∧ OnlyRegs [stat] { s with sec := t.sec } t))
      ∧ (s.sec.verified ≠ some 1 ∨ s.fget pwrP pwrState ≠ 0 → Makes .dlActivate s (refused 7))
      ∧ (s.sec.verified = some 1 → s.fget pwrP pwrState = 0 → Makes .dlActivate s fun t => begun 7 t ∧ t.sec = { s.sec with actRun := true } ∧ t.seq.drain = 2))
    ∧ (∀ ok, s.sec.progSlot = none ∨ s.nv.hold = true → Keeps (.dlProgramDone ok) s)
    ∧ (∀ k, s.nv.hold = false → s.sec.progSlot = some k →
      (Makes (.dlProgramDone false) s fun t => t.flag secP cmdBusy = false ∧ t.fget secP cmdResult = 3 ∧ t.fget secP cmdCause = 1 ∧ t.sec.progSlot = none
        ∧ Raised 113 2 s t ∧ Raised 99 1 s t ∧ (flipActs s 0 = false → Frame [stat] [99, 113] s t))
      ∧ (k < 2 → Makes (.dlProgramDone true) s fun t => t.flag secP cmdBusy = false ∧ t.fget secP cmdResult = 1 ∧ t.sec.progSlot = none ∧ Raised 98 8 s t
        ∧ (∀ i < 256, flashByte t (slotBase k + i) = nth 0 img i)
        ∧ (flipActs s 0 = false → Frame [stat, ra nvsP 0x040, ra nvsP 0x044] [98, 114] s t)))
    ∧ (s.sec.actRun = false → Keeps .dlActivateDone s)
    ∧ (s.sec.actRun = true → Makes .dlActivateDone s fun t => t.sec.actRun = false ∧ t.seq.drain ≠ 2
        ∧ (s.sec.attWait = false → t.flag secP cmdBusy = false ∧ t.fget secP cmdResult = 1)
        ∧ (s.sec.attWait = true → begun 1 t ∧ (s.flag secP idReadyF = true → t.sec.attBody.isSome = true))
        ∧ t.fget secP bootSlot = 2 ∧ t.rd (ra secP 0x048) = imgVersion img ∧ t.rd (ra secP 0x04C) = 0
        ∧ t.sec.baseSha = sha512 (signedPart img) ∧ t.sec.custSha = [] ∧ t.evt.stat.getLsbD 98 = true)
    ∧ (busy = false → Makes .dlAbort s fun t => ended 9 1 t ∧ t.sec = { s.sec with dlTaken := false, verified := none } ∧ OnlyRegs [stat] { s with sec := t.sec } t)
    ∧ (∀ k : BitVec 2, (2 ≤ k.toNat → Makes (.setPref k) s (refused 10))
      ∧ (busy = false → k.toNat < 2 → Makes (.setPref k) s fun t => ended 10 1 t
        ∧ (∀ j, nvInForce s = some j → (nvRecords s).2 + recBytes 6 ≤ 0x10000 →
          (s.nv.compact = 0 → s.nv.hold = false → ∃ a, t.nv.wait = s.nv.wait ++ [(1, 0, a)])
            ∧ (s.nv.compact ≠ 0 ∨ s.nv.hold = true → ∃ l, t.nv.queue = s.nv.queue ++ [(1, 0, l)] ∧ l.take 1 = bytesBE 1 k.toNat))
        ∧ Frame [stat, ra nvsP 0x040, ra nvsP 0x044] [114] s t))

/-- The NV store: REC_WRITE of a host type writes a body that waits for its commit word, a type of the device's own is refused, REC_READ finds the holding record, BLACKBOX records the last log entries once in BB_HOLD, a commit writes the commit word of the oldest record; a record that does not fit begins a compaction, or is refused with event 114 where the holding records leave no room, and the other slot takes force with event 116 (R443 to R445, R447, R460). It rests on choices of the model, which are no rule of the spec: log entries 28 and 29. -/
def Obligations.NvRecords : Prop :=
  ∀ (s : State),
    let stat := ra nvsP 0x054
    let y := (recSel s).1
    let k := (recSel s).2
    let own := y = 1 ∨ y = 3 ∨ 6 ≤ y ∧ y < 0x40
    let len := clampN 1 2048 (s.fget nvsP ⟨0x04C, 0, 12⟩)
    let journal := s.nv.compact = 0 ∧ s.nv.hold = false
    let kept := (nvHoldings (nvRecords s).1).foldl (fun n r => n + r.body.length + 4) 32
    let room (n : Nat) : Prop := (nvInForce s).isSome = true ∧ (nvRecords s).2 + recBytes n ≤ 0x10000
    let now := s.time.dtc.toNat / 65536
    let held := ∃ t0, s.nv.bbLast = some t0 ∧ now < t0 + 156250000 * s.fget nvsP ⟨0x070, 0, 16⟩
    (s.flag nvsP recBusy = true → Makes .recWrite s fun t =>
      t.rd (ra nvsP 0x024) = nvsP + 0x050 * 2 ^ 12 + 16 * 2 ^ 22 + 2 ^ 31 ∧ OnlyRegs [ra nvsP 0x024] s t)
    ∧ (s.flag nvsP recBusy = false → own ∨ nvInForce s = none → Makes .recWrite s fun t => t.fget nvsP recResult = 2 ∧ OnlyRegs [stat] s t)
    ∧ (s.flag nvsP recBusy = false → ¬ own → room len → ¬ journal → Makes .recWrite s fun t =>
      t.flag nvsP recBusy = true ∧ t.fget nvsP recResult = 0 ∧ t.nv.queue = s.nv.queue ++ [(y, k, nvBuffer s len)] ∧ t.nv.wait = s.nv.wait
        ∧ Frame [stat, ra nvsP 0x040, ra nvsP 0x044] [] s t)
    ∧ (s.flag nvsP recBusy = false → ¬ own → (nvInForce s).isSome = true → ¬ room len →
      (61440 < kept → Makes .recWrite s fun t =>
        t.fget nvsP recResult = 2 ∧ t.flag nvsP nvFull = true ∧ Raised 114 0 s t ∧ Frame [stat, ra nvsP 0x040] [114] s t)
      ∧ (kept ≤ 61440 → Makes .recWrite s fun t =>
        t.flag nvsP recBusy = true ∧ t.nv.queue = s.nv.queue ++ [(y, k, nvBuffer s len)] ∧ (journal → s.nv.wait = [] → t.nv.compact = 2)
          ∧ Frame [stat, ra nvsP 0x040, ra nvsP 0x044] [] s t))
    ∧ (s.flag nvsP recBusy = false → ¬ own → room len → journal → Makes .recWrite s fun t =>
      t.flag nvsP recBusy = true ∧ t.fget nvsP recResult = 0 ∧ (∃ a, t.nv.wait = s.nv.wait ++ [(y, k, a)])
        ∧ Frame [stat, ra nvsP 0x040, ra nvsP 0x044] [] s t)
    ∧ (nvHolding s y k = none → Makes .recRead s fun t => t.fget nvsP recResult = 3 ∧ OnlyRegs [stat] s t)
    ∧ (∀ r, nvHolding s y k = some r → Makes .recRead s fun t => t.fget nvsP recResult = 1 ∧ t.fget nvsP ⟨0x054, 4, 12⟩ = r.payload.length
        ∧ (∀ i < (r.payload.length + 3) / 4,
            kget 0 t.nv.buf i = BitVec.ofNat 32 (ofBE (((r.payload ++ List.replicate 3 0#8).drop (4 * i)).take 4)))
        ∧ OnlyRegs [stat] { s with nv := { s.nv with buf := t.nv.buf } } t)
    ∧ (held ∨ s.shut = true ∨ s.nv.recent = [] → Keeps .blackbox s)
    ∧ (¬ held → s.shut = false → s.nv.recent ≠ [] → room (8 * s.nv.recent.length) → journal → Makes .blackbox s fun t =>
      (∃ a, t.nv.wait = s.nv.wait ++ [(6, s.nv.bbKey, a)]) ∧ t.nv.bbKey = (s.nv.bbKey + 1) % 4 ∧ t.nv.bbLast = some now
        ∧ Frame [ra nvsP 0x040, ra nvsP 0x044] [] s t)
    ∧ (2 ≤ s.fget 0x001 ⟨0x058, 0, 2⟩ ∨ s.nv.hold = true ∨ (s.nv.wait = [] ∧ s.nv.compact ≠ 2) → Keeps .nvRecordCommit s)
    ∧ (∀ typ key a r, s.nv.wait = (typ, key, a) :: r → s.fget 0x001 ⟨0x058, 0, 2⟩ < 2 → s.nv.hold = false → Makes .nvRecordCommit s fun t =>
      t.nv.wait = r
        ∧ (s.nv.compact ≠ 1 ∨ r ≠ [] → flashBytes t a 4 = bytesBE 4 0xC35AA53C ∧ ∀ b, b < a ∨ a + 4 ≤ b → flashByte t b = flashByte s b)
        ∧ (∀ j, s.nv.compact = 1 → r = [] → nvInForce s = some j → nvBase j + 32 ≤ a → a + 4 ≤ nvBase j + 0x10000 → t.nv.compact = 2)
        ∧ (typ ≠ 1 → typ ≠ 3 → typ ≠ 6 → t.flag nvsP recBusy = false ∧ t.fget nvsP recResult = 1)
        ∧ (typ = 1 ∨ typ = 3 ∨ typ = 6 → t.rd stat = s.rd stat) ∧ (typ = 6 → Raised 115 key s t)
        ∧ Frame [ra nvsP 0x040, ra nvsP 0x044, stat] [115] s t)
    ∧ (∀ j, s.nv.wait = [] → s.nv.compact = 2 → s.fget 0x001 ⟨0x058, 0, 2⟩ < 2 → s.nv.hold = false → nvInForce s = some j → nvGen s j + 1 < 2 ^ 32 →
      Makes .nvRecordCommit s fun t => Raised 116 ((nvGen s j + 1) % 128) s t ∧ nvSlotOk t (1 - j) = true ∧ nvGen t (1 - j) = nvGen s j + 1
        ∧ (s.nv.queue = [] → t.nv.compact = 0 ∧ t.nv.queue = []) ∧ Frame [ra nvsP 0x040, ra nvsP 0x044] [114, 116] s t)

/-! Start-up and resets (spec chapter 19) -/

/-- Power-on reset and the other resets: every memory and register at its power-up value, fuses and flash kept, no light; a bring-up whose rails are missing waits, and goes on when they come or after 200 ms; RESET_N shorter than 2 µs and a write without the key reset nothing; ModulePwrUp once (R449, R450, R454 to R457, R461). It rests on choices of the model, which are no rule of the spec: log entry 38. -/
def Obligations.ResetsAndBringUp : Prop :=
  ∀ (s : State) (env : BootEnv),
    let keeps (t : State) : Prop := FusesKept s.sec t.sec ∧ t.sec.flash = s.sec.flash ∧ t.sec.report = [] ∧ t.sec.verified = none ∧ t.pending = s.pending
    let bare (t : State) : Prop := t.mem = [] ∧ t.chk = [] ∧ t.pwr.coreOn = false ∧ t.pwr.hkOn = false ∧ t.boot.ready = false ∧ t.mgmt.released = false
      ∧ t.evt.stat = 0 ∧ t.evt.mask = defined ∧ t.seq = {} ∧ Dark t
    let waits (t : State) : Prop := t.boot.waiting = some env ∧ t.pwr.por = false
    let reset (cause : Nat) (c : Instr) : Prop := s.shut = false → s.pwr.por = false →
      (env.railBad ≠ 0 → Makes c s fun t => keeps t ∧ bare t ∧ waits t ∧ t.fget 0x000 rstCause = cause
        ∧ t.fget 0x000 rstCount = (s.fget 0x000 rstCount + 1) % 256 ∧ t.time.dtc = s.time.dtc)
      ∧ (env.railBad = 0 → Makes c s fun t => t.mgmt.released = true ∧ t.boot.waiting = none ∧ t.boot.env = env
        ∧ (env.noGood = [] → env.hkFail ≠ 3 → t.boot.ready = true))
    (Makes .porAssert s fun t => keeps t ∧ bare t ∧ t.pwr.por = true ∧ t.time.dtc = 0
      ∧ (∀ a, a ≠ ra secP 0x040 → a ≠ ra pwrP 0x058 → a ≠ ra lasP 0x0CC → t.rd a = State.reset.rd a))
    ∧ (s.pwr.por = false → Keeps (.porRelease env) s)
    ∧ (s.pwr.por = true → env.railBad ≠ 0 → Makes (.porRelease env) s fun t => keeps t ∧ bare t ∧ waits t ∧ t.flag 0x000 ⟨0x050, 0, 1⟩ = env.strap
        ∧ t.fget 0x000 rstCause = 0)
    ∧ (s.pwr.por = true → env.railBad = 0 → Makes (.porRelease env) s fun t => t.mgmt.released = true ∧ t.boot.waiting = none ∧ t.boot.env = env
        ∧ (env.noGood = [] → env.hkFail ≠ 3 → t.boot.ready = true))
    ∧ (s.boot.waiting = none → Keeps .railLate s ∧ Keeps .railInRange s)
    ∧ (∀ e, s.boot.waiting = some e → Makes .railLate s (fun t => t.mgmt.released = true) ∧ Makes .railInRange s (fun t => t.mgmt.released = true))
    ∧ (∀ ns < 2000, Keeps (.resetN ns env) s)
    ∧ (∀ ns ≥ 2000, reset 1 (.resetN ns env) ∧ (s.shut = true ∨ s.pwr.por = true → Keeps (.resetN ns env) s))
    ∧ (∀ key : BitVec 16,
      (s.shut = true → Makes (.devRst key env) s fun t => Raised 128 0 s t ∧ bits (t.rd (ra 0x006 0x044)) 22 4 = 7 ∧ Frame [ra 0x006 0x044] [128] s t)
      ∧ (s.shut = false → tb (s.rd (ra 0x000 0x050)) 0 = true → Makes (.devRst key env) s fun t =>
        bits (t.rd (ra 0x006 0x044)) 22 4 = 9 ∧ OnlyRegs [ra 0x006 0x044] s t)
      ∧ (s.shut = false → tb (s.rd (ra 0x000 0x050)) 0 = false →
        (key ≠ 0xC0DE → Makes (.devRst key env) s fun t => t.rd (ra 0x000 0x024) = 0x0A0 * 2 ^ 12 + 17 * 2 ^ 22 + 2 ^ 31 ∧ OnlyRegs [ra 0x000 0x024] s t)
        ∧ (key = 0xC0DE → reset 2 (.devRst key env))))
    ∧ (s.boot.ready = true → s.pwr.coreOn = true → reset 3 (.cmisSoftwareReset env))
    ∧ (s.boot.ready = false ∨ s.pwr.coreOn = false ∨ s.shut = true → Keeps (.cmisSoftwareReset env) s)
    ∧ (s.mgmt.allowed = true ∨ s.boot.ready = false ∨ moduleFault s = true ∨ s.fget pwrP pwrState ≠ 0 → Keeps .modulePwrUp s)
    ∧ (s.mgmt.allowed = false → s.boot.ready = true → moduleFault s = false → s.fget pwrP pwrState = 0 → Makes .modulePwrUp s fun t =>
        t.mgmt.allowed = true ∧ t.sec.defEn = 0 ∧ ∀ n : Lane, s.sec.defEn.getLsbD n = true → t.flag lasP (lbEn n) = true)

/-! Ports and registers (spec chapters 1, 15 and 20) -/

/-- REGISTER_WRITE and XY_DATA_ACCESS: the gateway's answer for a page that does not, standalone mode, a disabled page, a staging twin, a plain register of a page without effects of its own, GRAD_EN cleared, and a word of an engine's memory with its index, written, read and read where it is uncorrectable (R6, R10, R11, R27, R98, R178, R305, R372, R373, R379). -/
def Obligations.RegisterAccesses : Prop :=
  ∀ (s : State),
    (∀ (port : Port) (addr : BitVec 22) (value : Word),
      let p := addr.toNat / 1024
      let off := addr.toNat % 1024
      let a := ra p off
      let c := Instr.registerWrite port addr value
      let err := ra 0x006 0x044
      off % 4 = 0 →
      (∀ cause, gateCause s p off = some cause → Makes c s fun t => Raised 128 (p % 128) s t
        ∧ t.rd err = p + off * 2 ^ 12 + cause * 2 ^ 22 + 2 ^ 26 + bit (port == .spi) * 2 ^ 27 ∧ Frame [err] [128] s t)
      ∧ (gateCause s p off = none → standaloneBars s port a = true → Makes c s fun t =>
        t.rd err = p + off * 2 ^ 12 + 9 * 2 ^ 22 + 2 ^ 26 + bit (port == .spi) * 2 ^ 27 ∧ OnlyRegs [err] s t)
      ∧ (gateCause s p off = none → standaloneBars s port a = false →
        ((pageOf p).isSome = true → 0x040 ≤ off → s.flag p pgCtrlEn = false → Makes c s fun t =>
          t.rd (ra p 0x024) = p + off * 2 ^ 12 + 17 * 2 ^ 22 + 2 ^ 31 ∧ OnlyRegs [ra p 0x024] s t)
        ∧ (∀ k i r j, pageOf p = some (k, i) → s.flag p pgCtrlEn = true →
          (0x240 ≤ off → rowAt k (off - twin) = some (r, j) → r.rws ≠ 0 →
            (inPress s p = false → Makes c s fun t => t.rd a = value.toNat &&& r.rws ∧ OnlyRegs [a] s t)
            ∧ (inPress s p = true → Makes c s fun t => t = { s with twinHeld := s.twinHeld ++ [(a, BitVec.ofNat 32 (value.toNat &&& r.rws))] }))
          ∧ (0x040 ≤ off → off < 0x240 → rowAt k off = some (r, j) → k ∈ [Kind.mgt, .clk, .xbar, .trc, .lrx, .lfm, .hrx, .htx] → Makes c s fun t =>
            t.rd a = (if r.rw ||| r.rwe = 0 then s.rd a else r.store (r.rw ||| r.rwe) (s.rd a) value.toNat % 2 ^ 32)
              ∧ (¬ ((k = .lrx ∧ off = 0x058 ∨ k = .hrx ∧ off = 0x05C) ∧ value.getLsbD 5 = false) → OnlyRegs [a] s t)
              ∧ (k = .lrx → off = 0x058 → value.getLsbD 5 = false → t.lanes[Fin.ofNat 8 i].fig = s.lanes[Fin.ofNat 8 i].fig.gradDrop)
              ∧ (k = .hrx → off = 0x05C → value.getLsbD 5 = false → t.hosts[Fin.ofNat 16 i].fig = s.hosts[Fin.ofNat 16 i].fig.gradDrop)))))
    ∧ (∀ (e : Eng),
      let w := s.rd (ra (engP e) 0x04C)
      let moves (t : State) : Prop := t.fget (engP e) ⟨0x04C, 0, 13⟩ = if tb w 14 then (bits w 0 13 + 1) % 8192 else bits w 0 13
      (∀ v : Word, flipActs s 4 = false → Makes (.xyDataAccess e (some v)) s fun t =>
        ofLE (t.fetchN (engWord e (tb w 13) (bits w 0 13)) 3) = v.toNat % 2 ^ 24 ∧ moves t
          ∧ (∀ g : Eng, t.eng[g].t = s.eng[g].t ∧ t.eng[g].pc = s.eng[g].pc) ∧ (∀ b, b ≠ ra (engP e) 0x04C → sideReg b = false → t.rd b = s.rd b))
      ∧ ((∀ i < 3, eccOf (s.chkErr (engWord e (tb w 13) (bits w 0 13) + i)) = .ok) → Makes (.xyDataAccess e none) s fun t =>
        moves t ∧ OnlyRegs [ra (engP e) 0x04C] s t)
      ∧ (flipActs s 4 = false → Makes (.xyDataAccess e none) s fun t => moves t ∧ Frame [ra (engP e) 0x04C, ra 0x006 0x044, ra 0x00B 0x0A8] [] s t
        ∧ (s.isUe (engWord e (tb w 13) (bits w 0 13)) 3 = true → bits (t.rd (ra 0x006 0x044)) 22 4 = 4)))

/-- Two-wire transactions: an address that is not the device's, a wrong PEC byte, the offset byte, a right PEC byte, which makes the write that would be made without it, a CMIS byte and then the bytes after it, a native word with its highest byte written as REGISTER_WRITE would and then the bytes after it, an incomplete word discarded with cause 8, the page select, reads from the current offset, of a CMIS byte, with PEC, and of a native word as four bytes of one snapshot, the end of an I3C read at a word that is not ready, and MODSEL_N, which ends a write as its end would (R362 to R367, R371). It rests on choices of the model, which are no rule of the spec: log entry 44. -/
def Obligations.TwoWireTransactions : Prop :=
  ∀ (s : State) (m : Bool) (addr : BitVec 7),
    let heard := acked m addr.toNat s
    let at_ (o : Nat) : State := { s with mgmt := { s.mgmt with ptr := o, ack := true, out := [] } }
    let err := ra 0x006 0x044
    (heard = false →
      (∀ data, Makes (.i2cWriteTransaction m addr data) s fun t => t = { s with mgmt := { s.mgmt with ack := false, out := [] } })
      ∧ (∀ o k r, Makes (.i2cReadTransaction m addr o k r) s fun t => t = { s with mgmt := { s.mgmt with ack := false, out := [] } }))
    ∧ (heard = true →
      (∀ (l : List Byte) (x : Byte), pecEn s = true → pecOf (2 * addr.toNat :: l.map (fun b => b.toNat)) ≠ x →
        Makes (.i2cWriteTransaction m addr (l ++ [x])) s fun t => t.mgmt = { s.mgmt with ack := false, out := [] }
          ∧ Raised 129 0 s t ∧ bits (t.rd err) 22 4 = 5 ∧ Frame [err] [129] s t)
      ∧ (∀ o : Byte, pecEn s = false → Makes (.i2cWriteTransaction m addr [o]) s fun t => t = at_ o.toNat)
      ∧ (∀ o : Byte, pecEn s = true → Makes (.i2cWriteTransaction m addr [o, pecOf [2 * addr.toNat, o.toNat]]) s fun t => t = at_ o.toNat)
      ∧ (∀ (o : Byte) (l : List Byte), pecEn s = true →
        Makes (.i2cWriteTransaction m addr (o :: l ++ [pecOf (2 * addr.toNat :: o.toNat :: l.map (fun b => b.toNat))])) s fun t =>
          t = writeBytes l [] (at_ o.toNat))
      ∧ (∀ (o b : Byte) (l : List Byte), pecEn s = false → inWindow s o.toNat = false → (o.toNat = 26 → b.getLsbD 3 = false) →
        ∃ u, exec (.i2cWriteTransaction m addr [o, b]) s = .next u
          ∧ Makes (.i2cWriteTransaction m addr (o :: b :: l)) s fun t => t = writeBytes l [] u)
      ∧ (∀ (o : Byte) (v : Word) (l : List Byte), pecEn s = false → inWindow s o.toNat = true → o.toNat % 4 = 0 → windowByte s o.toNat ≠ rstCtrl →
        ∃ u, exec (.i2cWriteTransaction m addr (o :: bytesLE 4 v.toNat)) s = .next u
          ∧ Makes (.i2cWriteTransaction m addr (o :: bytesLE 4 v.toNat ++ l)) s fun t => t = writeBytes l [] u)
      ∧ (∀ (o : Byte) (v : Word), pecEn s = false → inWindow s o.toNat = true → o.toNat % 4 = 0 →
        Makes (.i2cWriteTransaction m addr (o :: bytesLE 4 v.toNat)) s fun t =>
          exec (.registerWrite .twoWire (BitVec.ofNat 22 (windowByte s o.toNat)) v) (at_ (if o.toNat = 252 then 128 else o.toNat + 4)) = .next t)
      ∧ (∀ (o b : Byte), pecEn s = false → inWindow s o.toNat = true → o.toNat % 4 < 3 → Makes (.i2cWriteTransaction m addr [o, b]) s fun t =>
        bits (t.rd err) 22 4 = 8 ∧ OnlyRegs [err] { s with mgmt := t.mgmt } t)
      ∧ (∀ b : Byte, pecEn s = false → Makes (.i2cWriteTransaction m addr [127, b]) s fun t =>
        t.mgmt.ack = true ∧ cmisByte t 127 = b ∧ t.mgmt.ptr = 0 ∧ t = { s with mgmt := t.mgmt })
      ∧ (∀ o : Byte, ∀ r, pecEn s = false → s.flag mgtP mgtI3c = false → inWindow s o.toNat = true → o.toNat % 4 = 0 →
        Makes (.i2cReadTransaction m addr (some o) 4 r) s fun t =>
          t.mgmt.ack = true ∧ t.mgmt.out = bytesLE 4 (busRead .twoWire (windowByte s o.toNat) { s with mgmt := { s.mgmt with ptr := o.toNat } }).1)
      ∧ (∀ (o : Byte) (k r : Nat), pecEn s = false → s.mgmt.ptr = o.toNat → Makes (.i2cReadTransaction m addr none k r) s fun t =>
          exec (.i2cReadTransaction m addr (some o) k r) s = .next t)
      ∧ (∀ (o : Byte) (r : Nat), pecEn s = false → inWindow s o.toNat = false → Makes (.i2cReadTransaction m addr (some o) 1 r) s fun t =>
          t.mgmt.ack = true ∧ t.mgmt.out = [(cmisRead o.toNat { s with mgmt := { s.mgmt with ptr := o.toNat } }).1] ∧ t.mgmt.ptr = nextOff o.toNat)
      ∧ (∀ (o : Byte) (k : Nat), pecEn s = false → s.flag mgtP mgtI3c = true → inWindow s o.toNat = true → Makes (.i2cReadTransaction m addr (some o) k 0) s fun t =>
          t.mgmt.ack = true ∧ t.mgmt.out = [] ∧ t.mgmt.ptr = o.toNat ∧ t = { s with mgmt := t.mgmt })
      ∧ (∀ r, pecEn s = true → pecRdlen s = 1 → Makes (.i2cReadTransaction m addr (some 127) 3 r) s fun t =>
          t.mgmt.out = [cmisByte s 127, pecOf [2 * addr.toNat, 127, 2 * addr.toNat + 1, (cmisByte s 127).toNat], 0xFF])
      ∧ (∀ r, pecEn s = false → Makes (.i2cReadTransaction m addr (some 127) 1 r) s fun t =>
          t.mgmt.ack = true ∧ t.mgmt.out = [cmisByte s 127] ∧ t = { s with mgmt := t.mgmt }))
    ∧ Keeps (.modselNRise none) s
    ∧ (∀ (o b : Byte), s.mgmt.released = true → pecEn s = false → inWindow s o.toNat = true → o.toNat % 4 < 3 →
      Makes (.modselNRise (some [o, b])) s fun t => bits (t.rd err) 22 4 = 8 ∧ OnlyRegs [err] { s with mgmt := t.mgmt } t)
    ∧ (∀ (o : Byte) (l : List Byte), s.mgmt.released = true → pecEn s = false → Makes (.modselNRise (some (o :: l))) s fun t =>
        t = writeBytes l [] { s with mgmt := { s.mgmt with ptr := o.toNat } })
    ∧ (∀ (o b : Byte) (l : List Byte), s.mgmt.released = true → pecEn s = true →
      (inWindow s o.toNat = true → Makes (.modselNRise (some (o :: b :: l))) s fun t => bits (t.rd err) 22 4 = 8 ∧ OnlyRegs [err] s t)
      ∧ (inWindow s o.toNat = false → Keeps (.modselNRise (some (o :: b :: l))) s)
      ∧ Keeps (.modselNRise (some [o])) s)
    ∧ (∀ l, s.mgmt.released = false → Keeps (.modselNRise (some l)) s)

/-- CCCs and SPI: SETDASA makes the port an I3C target, SETNEWDA and RSTDAA change its address, the GET codes answer at the dynamic address alone, ENEC and DISEC set the events; an SPI write of one word is a register write, and each word of a read follows its start byte; nothing answers before the ports are ready (R362, R370, R453). It rests on choices of the model, which are no rule of the spec: log entry 46. -/
def Obligations.CccAndSpi : Prop :=
  ∀ (s : State),
    let i3c := s.flag mgtP mgtI3c
    let st := ra mgtP 0x048
    let gives (l : List Byte) (t : State) : Prop := t = { s with mgmt := { s.mgmt with ack := true, out := l } }
    let silent (t : State) : Prop := t = { s with mgmt := { s.mgmt with ack := false, out := [] } }
    (∀ stat dyn : BitVec 7,
      (s.mgmt.released = true → i3c = false → stat = 0x50 → Makes (.setdasa stat dyn) s fun t => t.flag mgtP mgtI3c = true
        ∧ t.fget mgtP mgtDyn = dyn.toNat ∧ t.mgmt.ack = true ∧ OnlyRegs [st] { s with mgmt := t.mgmt } t)
      ∧ (s.mgmt.released = false ∨ i3c = true ∨ stat ≠ 0x50 → Makes (.setdasa stat dyn) s silent))
    ∧ (s.mgmt.released = true → i3c = true →
      (Makes .rstdaa s fun t => t.flag mgtP mgtI3c = false ∧ t.fget mgtP mgtDyn = 0 ∧ OnlyRegs [st] { s with mgmt := t.mgmt } t)
      ∧ (∀ e : Byte, (Makes (.enec e) s fun t => t = { s with mgmt := { s.mgmt with events := s.mgmt.events ||| e } })
        ∧ (Makes (.disec e) s fun t => t = { s with mgmt := { s.mgmt with events := s.mgmt.events &&& ~~~e } })))
    ∧ (s.mgmt.released = false ∨ i3c = false → Keeps .rstdaa s ∧ ∀ e, Keeps (.enec e) s ∧ Keeps (.disec e) s)
    ∧ (∀ a : BitVec 7,
      (cccHit a.toNat s = true →
        (∀ d : BitVec 7, Makes (.setnewda a d) s fun t => t.flag mgtP mgtI3c = true ∧ t.fget mgtP mgtDyn = d.toNat ∧ t.mgmt.ack = true
          ∧ OnlyRegs [st] { s with mgmt := t.mgmt } t)
        ∧ Makes (.getpid a) s (gives ((List.range 6).map Config.i3cId)) ∧ Makes (.getbcr a) s (gives [Config.i3cId 6])
        ∧ Makes (.getdcr a) s (gives [Config.i3cId 7])
        ∧ (Makes (.getstatus a) s fun t => t.mgmt.ack = true ∧ t.mgmt.out.length = 2 ∧ t = { s with mgmt := t.mgmt, drawn := s.drawn + 1 }))
      ∧ (cccHit a.toNat s = false → Makes (.getpid a) s silent ∧ Makes (.getbcr a) s silent ∧ Makes (.getdcr a) s silent
        ∧ Makes (.getstatus a) s silent ∧ ∀ d, Makes (.setnewda a d) s silent))
    ∧ (s.mgmt.released = true → s.boot.ready = true → ∀ a : BitVec 24,
      let x := a.toNat / 4 * 4 % 2 ^ 22
      (∀ v : Word, Makes (.spiWrite a [v]) s fun t => exec (.registerWrite .spi (BitVec.ofNat 22 x) v) s = .next t)
      ∧ (∀ w : Nat, Makes (.spiRead a [w]) s fun t =>
        t.mgmt.out = List.replicate (min w 19) 0xFF#8 ++ [0x5A#8] ++ (bytesLE 4 (busRead .spi x s).1).reverse)
      ∧ (∀ (w : Nat) (k : Kind) (i : Nat) (r : Row) (j : Nat), gateCause s (x / 1024) (x % 1024) = none → pageOf (x / 1024) = some (k, i) →
        k ∈ [Kind.thm, .mgt, .clk, .xbar, .trc, .lfm, .htx] → 0x040 ≤ x % 1024 → x % 1024 < 0x240 → rowAt k (x % 1024) = some (r, j) →
        Makes (.spiRead a [w]) s fun t =>
          t.mgmt.out = List.replicate (min w 19) 0xFF#8 ++ [0x5A#8] ++ (bytesLE 4 (s.rd x)).reverse ∧ OnlyRegs [] { s with mgmt := t.mgmt } t))
    ∧ (s.mgmt.released = false ∨ s.boot.ready = false → ∀ a, (∀ l, Keeps (.spiWrite a l) s)
      ∧ ∀ l, Makes (.spiRead a l) s fun t => t = { s with mgmt := { s.mgmt with out := [] } })

/-- ApplyDPInit and ApplyImmediate: discarded where the front-end does not answer or in standalone mode; signal-integrity values alone succeed at once; otherwise the status of every host lane is success or in progress where the press passes its checks, rejected where a page is in a press already, and names the check that fails (R369, R372, R380). It rests on choices of the model, which are no rule of the spec: log entries 43 and 47. -/
def Obligations.CmisApply : Prop :=
  ∀ (s : State) (paths : List DataPath),
    let err := ra 0x006 0x044
    let alone := tb (s.rd (ra 0x000 0x050)) 0
    let hosts := pathHosts paths
    let pages := pathPages paths
    let status (t : State) (h : Nat) : Nat := cmisNibble t (page11 (h / 8) 202) (h % 8)
    let staged := siApply paths (each paths stagePath (cfgStatus hosts 12 s))
    let parkedAll := each (pages.filter (fun p => !staged.parked p)) becomeParked staged
    let open_ := s.shut = false ∧ frontUp s = true ∧ alone = false
    let code := if s.shut then 7 else if !frontUp s then 1 else 9
    (¬ open_ → ∀ c ∈ [Instr.cmisApplyDpinit paths, .cmisApplyImmediate paths], Makes c s fun t => bits (t.rd err) 22 4 = code ∧ OnlyRegs [err] s t)
    ∧ (open_ →
      (paths.all (onlySi s) = true → Makes (.cmisApplyImmediate paths) s fun t => ∀ h ∈ hosts, status t h = 1)
      ∧ (∀ c ∈ [Instr.cmisApplyDpinit paths, .cmisApplyImmediate paths], c = .cmisApplyDpinit paths ∨ paths.all (onlySi s) = false →
        (∀ p, pages.find? (inPress staged) = some p → Makes c s fun t => ∀ h ∈ hosts, status t h = 2)
        ∧ (∀ f, pages.find? (inPress staged) = none → pressCheck parkedAll pages = some f → Makes c s fun t => ∀ h ∈ hosts, status t h = cfgCode f)
        ∧ (pages.find? (inPress staged) = none → pressCheck parkedAll pages = none → paceFail parkedAll pages = none → s.presses = [] →
          Makes c s fun t => ∀ h ∈ hosts, status t h = 1 ∨ status t h = 12)))

/-! The whole machine -/

/-- A step takes the command at the front of the queue and is exec of it with the queue's rest; with no command waiting the device idles: its time counter advances by one step of tickDtc, and no command appears (log entries 6 and 9). Every command completes in every state: no rule of the spec stops the device (log entry 1). It rests on choices of the model, which are no rule of the spec: log entries 1, 6 and 9. -/
def Obligations.EveryStepCompletes : Prop :=
  (∀ (s : State),
    (∀ c r, s.pending = c :: r → step s = exec c { s with pending := r })
    ∧ (s.pending = [] → ∃ t, step s = .next t ∧ t.pending = [] ∧ t.time.dtc = (tickDtc s).time.dtc))
  ∧ (∀ (c : Instr) (s : State), Completes c s)

/-- What reset leaves, where the spec gives the value: power-on reset asserted, nothing powered, no light, no status bit set and every defined event unmasked, the memories listing nothing, and registers of each group at the words of their tables (R373, R403, R449, R464). -/
def Obligations.ResetValues : Prop :=
  let s := State.reset
  s.pending = [] ∧ s.pwr.por = true ∧ s.pwr.coreOn = false ∧ s.pwr.hkOn = false ∧ s.mgmt.released = false ∧ s.boot.ready = false
    ∧ Dark s ∧ s.evt.stat = 0 ∧ s.evt.mask = defined ∧ s.time.dtc = 0 ∧ s.twinHeld = [] ∧ s.presses = [] ∧ s.seq.queue = []
    ∧ (∀ e : Eng, s.eng[e].phase = .idle) ∧ (∀ n : Lane, s.lanes[n].run = false ∧ s.wmk[n].slots = [] ∧ s.wmk[n].queue = [])
    ∧ Memory.wf s.mem ∧ Checks.wf s.chk
    ∧ (∀ n : Lane, s.rd (ra 0x008 (0x040 + 4 * n)) = 0x10 + 0x22 * n.val)
    ∧ (∀ p, (pageOf p).isSome = true → p < 128 → s.flag p pgCtrlEn = true ∧ s.fget p pgPark = 0)
    ∧ s.fget secP cmdResult = 0 ∧ s.flag nvsP recBusy = false ∧ (∀ k : Fin 4, s.fget (capP k) capStat = 0)

/-- Every step keeps the memories in their canonical form: addresses strictly rising, and nothing listed that an unlisted byte would read as (R298, R303, R305). It rests on choices of the model, which are no rule of the spec: log entry 61. -/
def Obligations.MemoryStaysCanonical : Prop :=
  ∀ (s t : State), Memory.wf s.mem → Checks.wf s.chk → step s = .next t → Memory.wf t.mem ∧ Checks.wf t.chk

/-- No command and no passing of time brings a fuse back: key slots programmed or revoked stay so, the rollback counter never falls, and the observation lock stays blown (R430, R438 to R441). -/
def Obligations.FusesAreOneWay : Prop :=
  ∀ (s t : State), step s = .next t → FusesKept s.sec t.sec
end

