-- ==== Sys2Proof/Laws/KMap.lean ====
section
/-! SUPPORT. Laws of the sparse tables: what a read gives after a write, and that a write keeps the canonical form. -/

namespace Sys2Proof.Laws

open Sys2Proof.Machine

variable {α : Type}

theorem kget_kdel_same (d : α) (m : KMap α) (k : Nat) : kget d (kdel k m) k = d := by
  induction m with
  | nil => rfl
  | cons e r ih =>
    simp only [kdel]
    split
    · exact ih
    · rename_i h
      simp only [kget, ih]
      split
      · exact absurd (Eq.symm ‹_›) h
      · rfl

theorem kget_kdel_other (d : α) (m : KMap α) {k j : Nat} (h : j ≠ k) : kget d (kdel k m) j = kget d m j := by
  induction m with
  | nil => rfl
  | cons e r ih =>
    simp only [kdel]
    split
    · rename_i he
      simp only [kget, ih]
      split
      · omega
      · rfl
    · simp only [kget, ih]

theorem kget_kins_same (d : α) (m : KMap α) (k : Nat) (v : α) (h : ∀ e ∈ m, e.1 ≠ k) : kget d (kins k v m) k = v := by
  induction m with
  | nil => simp [kins, kget]
  | cons e r ih =>
    simp only [kins]
    split
    · simp [kget]
    · have h1 := h e (List.mem_cons_self ..)
      have h2 := ih (fun e he => h e (List.mem_cons_of_mem _ he))
      simp only [kget, h2]
      split
      · omega
      · rfl

theorem kget_kins_other (d : α) (m : KMap α) {k j : Nat} (v : α) (h : j ≠ k) : kget d (kins k v m) j = kget d m j := by
  induction m with
  | nil => simp [kins, kget, h]
  | cons e r ih =>
    simp only [kins]
    split
    · simp [kget, h]
    · simp only [kget, ih]

theorem kdel_no (m : KMap α) (k : Nat) : ∀ e ∈ kdel k m, e.1 ≠ k := by
  induction m with
  | nil => simp [kdel]
  | cons e r ih =>
    simp only [kdel]
    split
    · exact ih
    · intro e' he
      rcases List.mem_cons.mp he with rfl | he
      · assumption
      · exact ih e' he

theorem kdel_sub (m : KMap α) (k : Nat) : ∀ e ∈ kdel k m, e ∈ m := by
  induction m with
  | nil => simp [kdel]
  | cons e r ih =>
    simp only [kdel]
    intro e' he
    split at he
    · exact List.mem_cons_of_mem _ (ih e' he)
    · rcases List.mem_cons.mp he with rfl | he
      · exact List.mem_cons_self ..
      · exact List.mem_cons_of_mem _ (ih e' he)

/-- A read after a write of the same key gives the value written. -/
@[simp] theorem kget_kput_same [DecidableEq α] (d : α) (m : KMap α) (k : Nat) (v : α) : kget d (kput d m k v) k = v := by
  unfold kput
  split
  · rw [kget_kdel_same]; exact (Eq.symm ‹_›)
  · exact kget_kins_same d _ k v (kdel_no m k)

/-- A write leaves every other key alone, whatever that key reads as when it is not listed. -/
theorem kget_kput_other [DecidableEq α] (d d' : α) (m : KMap α) {k j : Nat} (v : α) (h : j ≠ k) : kget d' (kput d m k v) j = kget d' m j := by
  unfold kput
  split
  · exact kget_kdel_other d' m h
  · rw [kget_kins_other d' _ v h, kget_kdel_other d' m h]

theorem kdel_pairwise (m : KMap α) (k : Nat) (h : m.Pairwise (fun a b => a.1 < b.1)) : (kdel k m).Pairwise (fun a b => a.1 < b.1) := by
  induction m with
  | nil => simp [kdel]
  | cons e r ih =>
    rw [List.pairwise_cons] at h
    simp only [kdel]
    split
    · exact ih h.2
    · exact List.pairwise_cons.mpr ⟨fun x hx => h.1 x (kdel_sub r k x hx), ih h.2⟩

theorem mem_kins (m : KMap α) (k : Nat) (v : α) : ∀ e ∈ kins k v m, e = (k, v) ∨ e ∈ m := by
  induction m with
  | nil => simp [kins]
  | cons e r ih =>
    intro x hx
    simp only [kins] at hx
    split at hx
    · exact List.mem_cons.mp hx
    · rcases List.mem_cons.mp hx with rfl | hx
      · exact Or.inr (List.mem_cons_self ..)
      · exact (ih x hx).imp id (List.mem_cons_of_mem _)

theorem kins_pairwise (m : KMap α) (k : Nat) (v : α) (h : m.Pairwise (fun a b => a.1 < b.1)) (hk : ∀ e ∈ m, e.1 ≠ k) :
    (kins k v m).Pairwise (fun a b => a.1 < b.1) := by
  induction m with
  | nil => simp [kins]
  | cons e r ih =>
    have hp := List.pairwise_cons.mp h
    simp only [kins]
    split
    · rename_i hlt
      refine List.pairwise_cons.mpr ⟨fun x hx => ?_, h⟩
      rcases List.mem_cons.mp hx with rfl | hx
      · exact hlt
      · exact Nat.lt_trans hlt (hp.1 x hx)
    · have hne := hk e (List.mem_cons_self ..)
      refine List.pairwise_cons.mpr ⟨fun x hx => ?_, ih hp.2 (fun x hx => hk x (List.mem_cons_of_mem _ hx))⟩
      rcases mem_kins r k v x hx with rfl | hx
      · show e.1 < k; omega
      · exact hp.1 x hx

/-- A write keeps the canonical form. -/
theorem kput_wf [DecidableEq α] (d : Nat → α) (m : KMap α) (k : Nat) (v : α) (h : kwf d m) : kwf d (kput (d k) m k v) := by
  obtain ⟨hp, hd⟩ := h
  unfold kput
  split
  · exact ⟨kdel_pairwise m k hp, fun e he => hd e (kdel_sub m k e he)⟩
  · refine ⟨kins_pairwise _ k v (kdel_pairwise m k hp) (kdel_no m k), fun e he => ?_⟩
    rcases mem_kins _ k v e he with rfl | he
    · assumption
    · exact hd e (kdel_sub m k e he)

/-- Leaving entries out keeps the canonical form. -/
theorem filter_wf (d : Nat → α) (m : KMap α) (p : Nat × α → Bool) (h : kwf d m) : kwf d (m.filter p) :=
  ⟨h.1.filter p, fun e he => h.2 e (List.mem_filter.mp he).1⟩

end Sys2Proof.Laws
end

