-- ==== Sys2Proof/Laws/Memory.lean ====
section
/-! SUPPORT. Every operation over the memories keeps their canonical form, reset's memories have it, and a byte reads as it was last stored. -/

namespace Sys2Proof.Laws

open Sys2Proof.Machine

/-- The memories and the errors of their check bits are in canonical form. -/
abbrev Canonical (s : State) : Prop := Memory.wf s.mem ∧ Checks.wf s.chk

theorem reset_canonical : Canonical State.reset := ⟨⟨List.Pairwise.nil, fun _ h => nomatch h⟩, ⟨List.Pairwise.nil, fun _ h => nomatch h⟩⟩

/-- Canonical form is a matter of the two tables alone. -/
theorem canonical_of_eq {s t : State} (h : Canonical s) (hm : t.mem = s.mem) (hc : t.chk = s.chk) : Canonical t := by
  unfold Canonical; rw [hm, hc]; exact h

theorem putByte_canonical {s : State} (h : Canonical s) (a : Nat) (b : Byte) (e : BitVec 5) : Canonical (s.putByte a b e) :=
  ⟨kput_wf memDef s.mem a b h.1, kput_wf chkDef s.chk a e h.2⟩

theorem putBytes_canonical (bs : List Byte) {s : State} (h : Canonical s) (a : Nat) (e : BitVec 5) : Canonical (s.putBytes a bs e) := by
  induction bs generalizing s a with
  | nil => exact h
  | cons b r ih => exact ih (putByte_canonical h a b e) (a + 1)

theorem each_canonical {α : Type} (l : List α) (f : α → State → State) (hf : ∀ x ∈ l, ∀ s, Canonical s → Canonical (f x s)) {s : State}
    (h : Canonical s) : Canonical (each l f s) := by
  induction l generalizing s with
  | nil => exact h
  | cons x r ih =>
    exact ih (fun y hy => hf y (List.mem_cons_of_mem _ hy)) (hf x (List.mem_cons_self ..) s h)

theorem wr_canonical {s : State} (h : Canonical s) (a v : Nat) : Canonical (s.wr a v) := canonical_of_eq h rfl rfl

theorem clearLive_canonical {s : State} (h : Canonical s) (m w : Nat) : Canonical (clearLive m w s) := by
  refine each_canonical _ _ (fun i _ s h => ?_) h
  dsimp only
  split
  · exact wr_canonical h _ _
  · exact h

theorem store_canonical {s : State} (h : Canonical s) (a : Nat) (bs : List Byte) (e : BitVec 5) : Canonical (store a bs e s) := by
  have hp : Canonical (s.putBytes a (bs.map (fun b => b ^^^ flipData s (regionOf (a / 65536)))) (e ^^^ flipCheck s (regionOf (a / 65536)))) :=
    putBytes_canonical _ h _ _
  unfold store flipSpent
  dsimp only
  split
  · exact wr_canonical hp _ _
  · exact hp

/-- A write of whole ECC words keeps the canonical form. -/
theorem memWrite_canonical {s : State} (h : Canonical s) (a : Nat) (bs : List Byte) : Canonical (memWrite a bs s) := by
  unfold memWrite
  dsimp only
  refine each_canonical _ _ (fun w _ t ht => ?_) (store_canonical h a bs 0)
  exact clearLive_canonical (s := { t with wflag := kput _ t.wflag _ true }) ht _ w

theorem poison_canonical {s : State} (h : Canonical s) (m w : Nat) : Canonical (poison m w s) := store_canonical h _ _ _

theorem upset_canonical {s : State} (h : Canonical s) (a : Nat) (mask : BitVec 13) : Canonical (upset a mask s) :=
  ⟨kput_wf memDef s.mem a _ h.1, kput_wf chkDef s.chk a _ h.2⟩

theorem memLost_canonical {s : State} (h : Canonical s) (lost : Nat → Bool) : Canonical (memLost lost s) :=
  ⟨filter_wf memDef s.mem _ h.1, filter_wf chkDef s.chk _ h.2⟩

theorem engMemWrite_canonical {s : State} (h : Canonical s) (e : Eng) (y : Bool) (w v : Nat) : Canonical (engMemWrite e y w v s) := by
  unfold engMemWrite
  dsimp only
  split
  · exact each_canonical _ _ (fun j _ s hs => memWrite_canonical hs _ _) h
  · exact memWrite_canonical h _ _

theorem imageStore_canonical (f : Nat) {s : State} (h : Canonical s) (a : Nat) (bs : List Byte) : Canonical (imageStore f a bs s) := by
  induction f generalizing s a bs with
  | zero => exact h
  | succ f ih =>
    unfold imageStore
    split
    · exact h
    · exact ih (memWrite_canonical h _ _) _ _

theorem memStore_canonical {s : State} (h : Canonical s) (a : Nat) (bs : List Byte) : Canonical (memStore a bs s) := imageStore_canonical _ h a bs

/-! A byte reads as it was last stored -/

@[simp] theorem putByte_byte_same (s : State) (a : Nat) (b : Byte) (e : BitVec 5) : (s.putByte a b e).byte a = b := kget_kput_same _ _ _ _

@[simp] theorem putByte_chkErr_same (s : State) (a : Nat) (b : Byte) (e : BitVec 5) : (s.putByte a b e).chkErr a = e := kget_kput_same _ _ _ _

theorem putByte_byte_other (s : State) {a c : Nat} (b : Byte) (e : BitVec 5) (h : c ≠ a) : (s.putByte a b e).byte c = s.byte c :=
  kget_kput_other _ _ _ _ h

theorem putByte_chkErr_other (s : State) {a c : Nat} (b : Byte) (e : BitVec 5) (h : c ≠ a) : (s.putByte a b e).chkErr c = s.chkErr c :=
  kget_kput_other _ _ _ _ h

/-- A byte stored without an error reads back as stored. -/
theorem putByte_fetch_same (s : State) (a : Nat) (b : Byte) : (s.putByte a b 0).fetch a = b := by
  unfold State.fetch
  rw [putByte_byte_same, putByte_chkErr_same]
  rfl

theorem putBytes_byte_other (bs : List Byte) (s : State) (a c : Nat) (e : BitVec 5) (h : c < a ∨ a + bs.length ≤ c) :
    (s.putBytes a bs e).byte c = s.byte c ∧ (s.putBytes a bs e).chkErr c = s.chkErr c := by
  induction bs generalizing s a with
  | nil => exact ⟨rfl, rfl⟩
  | cons b r ih =>
    have hne : c ≠ a := by rw [List.length_cons] at h; omega
    have hr : c < a + 1 ∨ a + 1 + r.length ≤ c := by
      rcases h with h | h
      · exact Or.inl (by omega)
      · exact Or.inr (by rw [List.length_cons] at h; omega)
    have := ih (s.putByte a b e) (a + 1) hr
    exact ⟨this.1.trans (putByte_byte_other s b e hne), this.2.trans (putByte_chkErr_other s b e hne)⟩

end Sys2Proof.Laws
end

