-- ==== Sys2Proof/Laws/Regs.lean ====
section
/-! SUPPORT. Laws of the register table: bit fields, a register after a write of it or of another, a field after a write of it or of another. -/

namespace Sys2Proof.Laws

open Sys2Proof.Machine

theorem bits_lt (v l w : Nat) : bits v l w < 2 ^ w := Nat.mod_lt _ (Nat.two_pow_pos w)

/-- A bit of a field. -/
theorem testBit_bits (v l w i : Nat) : (bits v l w).testBit i = (decide (i < w) && v.testBit (l + i)) := by
  simp [bits, Nat.testBit_mod_two_pow, Nat.testBit_shiftRight]

theorem bits_le (v l w : Nat) : bits v l w * 2 ^ l ≤ v := by
  unfold bits
  calc (v >>> l) % 2 ^ w * 2 ^ l ≤ (v >>> l) * 2 ^ l := Nat.mul_le_mul_right _ (Nat.mod_le _ _)
    _ ≤ v := by rw [Nat.shiftRight_eq_div_pow]; exact Nat.div_mul_le_self v _

/-- A number is what lies above a field, the field, and what lies below it. -/
theorem split_at (v l w : Nat) : v = v / 2 ^ (l + w) * 2 ^ (l + w) + bits v l w * 2 ^ l + v % 2 ^ l := by
  unfold bits
  rw [Nat.shiftRight_eq_div_pow]
  have h1 := Nat.div_add_mod v (2 ^ l)
  have h2 := Nat.div_add_mod (v / 2 ^ l) (2 ^ w)
  rw [Nat.div_div_eq_div_mul, ← Nat.pow_add] at h2
  calc v = 2 ^ l * (v / 2 ^ l) + v % 2 ^ l := h1.symm
    _ = 2 ^ l * (2 ^ w * (v / 2 ^ (l + w)) + v / 2 ^ l % 2 ^ w) + v % 2 ^ l := by rw [h2]
    _ = _ := by rw [Nat.pow_add]; ring

/-- A changed number is what lies above the field, the new field, and what lies below it. -/
theorem setBits_eq (v l w x : Nat) :
    setBits v l w x = v / 2 ^ (l + w) * 2 ^ (l + w) + x % 2 ^ w * 2 ^ l + v % 2 ^ l := by
  have h := split_at v l w
  unfold setBits
  omega

theorem low_field_lt (v l w x : Nat) : x % 2 ^ w * 2 ^ l + v % 2 ^ l < 2 ^ (l + w) := by
  have hx : x % 2 ^ w + 1 ≤ 2 ^ w := Nat.mod_lt x (Nat.two_pow_pos w)
  have hv : v % 2 ^ l < 2 ^ l := Nat.mod_lt v (Nat.two_pow_pos l)
  have h1 : (x % 2 ^ w + 1) * 2 ^ l ≤ 2 ^ w * 2 ^ l := Nat.mul_le_mul_right _ hx
  have h2 : 2 ^ (l + w) = 2 ^ w * 2 ^ l := by rw [Nat.pow_add, Nat.mul_comm]
  have h3 : (x % 2 ^ w + 1) * 2 ^ l = x % 2 ^ w * 2 ^ l + 2 ^ l := by ring
  omega

/-- Every bit of a number with a field changed. -/
theorem testBit_setBits (v l w x i : Nat) :
    (setBits v l w x).testBit i = if l ≤ i ∧ i < l + w then x.testBit (i - l) else v.testBit i := by
  rw [setBits_eq]
  have hl : v % 2 ^ l < 2 ^ l := Nat.mod_lt v (Nat.two_pow_pos l)
  have hm := low_field_lt v l w x
  have e1 : v / 2 ^ (l + w) * 2 ^ (l + w) + x % 2 ^ w * 2 ^ l + v % 2 ^ l
      = 2 ^ (l + w) * (v / 2 ^ (l + w)) + (2 ^ l * (x % 2 ^ w) + v % 2 ^ l) := by ring
  have hm' : 2 ^ l * (x % 2 ^ w) + v % 2 ^ l < 2 ^ (l + w) := by rw [Nat.mul_comm]; exact hm
  rw [e1, Nat.testBit_two_pow_mul_add _ hm']
  by_cases h1 : i < l + w
  · rw [if_pos h1, Nat.testBit_two_pow_mul_add _ hl]
    by_cases h2 : i < l
    · rw [if_pos h2, Nat.testBit_mod_two_pow, if_neg (by omega)]; simp [h2]
    · rw [if_neg h2, Nat.testBit_mod_two_pow, if_pos (by omega)]
      have : i - l < w := by omega
      simp [this]
  · rw [if_neg h1, if_neg (by omega), Nat.testBit_div_two_pow]; congr 1; omega

theorem setBits_lt (v l w x n : Nat) (h : l + w ≤ n) (hv : v < 2 ^ n) : setBits v l w x < 2 ^ n := by
  apply Nat.lt_pow_two_of_testBit
  intro i hi
  rw [testBit_setBits, if_neg (by omega)]
  exact Nat.testBit_lt_two_pow (Nat.lt_of_lt_of_le hv (Nat.pow_le_pow_right (by decide) hi))

/-- A field after a write of it. -/
@[simp] theorem bits_setBits_same (v l w x : Nat) : bits (setBits v l w x) l w = x % 2 ^ w := by
  apply Nat.eq_of_testBit_eq
  intro i
  rw [testBit_bits, testBit_setBits, Nat.testBit_mod_two_pow]
  by_cases h : i < w
  · simp [h]
  · simp [h]

/-- A field after a write of one that shares no bit with it. -/
theorem bits_setBits_other (v l w x l' w' : Nat) (h : l' + w' ≤ l ∨ l + w ≤ l') : bits (setBits v l w x) l' w' = bits v l' w' := by
  apply Nat.eq_of_testBit_eq
  intro i
  rw [testBit_bits, testBit_bits, testBit_setBits]
  by_cases hi : i < w'
  · rw [if_neg (by omega)]
  · simp [hi]

theorem bits_mod32 (v l w : Nat) (h : l + w ≤ 32) : bits (v % 2 ^ 32) l w = bits v l w := by
  apply Nat.eq_of_testBit_eq
  intro i
  rw [testBit_bits, testBit_bits, Nat.testBit_mod_two_pow]
  by_cases hi : i < w
  · have : l + i < 32 := by omega
    simp [hi, this]
  · simp [hi]

theorem tb_bits (v i : Nat) : tb v i = (bits v i 1 == 1) := by
  have h := testBit_bits v i 1 0
  have hl := bits_lt v i 1
  simp only [Nat.add_zero, Nat.lt_one_iff, decide_true, Bool.true_and] at h
  unfold tb
  rw [← h]
  generalize bits v i 1 = b at hl
  have : b = 0 ∨ b = 1 := by omega
  rcases this with rfl | rfl <;> rfl

/-! Registers -/

theorem rd_lt (s : State) (a : Nat) : s.rd a < 2 ^ 32 := (kget (resetWord a) s.regs a).isLt

/-- A register after a write of it holds the low 32 bits written. -/
@[simp] theorem rd_wr_same (s : State) (a v : Nat) : (s.wr a v).rd a = v % 2 ^ 32 := by
  simp [State.rd, State.wr]

/-- A register after a write of another. -/
theorem rd_wr_other (s : State) {a b : Nat} (v : Nat) (h : b ≠ a) : (s.wr a v).rd b = s.rd b := by
  simp only [State.rd, State.wr]
  rw [kget_kput_other _ _ _ _ h]

/-- A register after a write of any. -/
theorem rd_wr (s : State) (a b v : Nat) : (s.wr a v).rd b = if b = a then v % 2 ^ 32 else s.rd b := by
  split
  · subst b; exact rd_wr_same s a v
  · exact rd_wr_other s v ‹_›

theorem fset_rd (s : State) (p : Nat) (f : Fld) (x b : Nat) (hf : f.lsb + f.w ≤ 32) :
    (s.fset p f x).rd b = if b = ra p f.off then setBits (s.rd (ra p f.off)) f.lsb f.w x else s.rd b := by
  unfold State.fset
  rw [rd_wr]
  split
  · exact Nat.mod_eq_of_lt (setBits_lt _ _ _ _ 32 hf (rd_lt s _))
  · rfl

/-- A field after a write of it. -/
theorem fget_fset_same (s : State) (p : Nat) (f : Fld) (x : Nat) (hf : f.lsb + f.w ≤ 32) : (s.fset p f x).fget p f = x % 2 ^ f.w := by
  unfold State.fget
  rw [fset_rd s p f x _ hf, if_pos rfl, bits_setBits_same]

/-- A field after a write of one in another register, or of one in the same register that shares no bit with it. -/
theorem fget_fset_other (s : State) (p p' : Nat) (f f' : Fld) (x : Nat) (hf : f.lsb + f.w ≤ 32)
    (h : ra p' f'.off ≠ ra p f.off ∨ f'.lsb + f'.w ≤ f.lsb ∨ f.lsb + f.w ≤ f'.lsb) : (s.fset p f x).fget p' f' = s.fget p' f' := by
  unfold State.fget
  rw [fset_rd s p f x _ hf]
  split
  · rename_i he
    rw [he] at h ⊢
    exact bits_setBits_other _ _ _ _ _ _ (h.resolve_left (fun hn => hn rfl))
  · rfl

/-- A one-bit field after a write of it. -/
theorem flag_setFlag_same (s : State) (p : Nat) (f : Fld) (b : Bool) (hw : f.w = 1) (hf : f.lsb < 32) : (s.setFlag p f b).flag p f = b := by
  unfold State.flag State.setFlag
  rw [fget_fset_same s p f _ (by omega), hw]
  cases b <;> rfl

/-- A one-bit field after a write of another field. -/
theorem flag_setFlag_other (s : State) (p p' : Nat) (f f' : Fld) (b : Bool) (hf : f.lsb + f.w ≤ 32)
    (h : ra p' f'.off ≠ ra p f.off ∨ f'.lsb + f'.w ≤ f.lsb ∨ f.lsb + f.w ≤ f'.lsb) : (s.setFlag p f b).flag p' f' = s.flag p' f' := by
  unfold State.flag State.setFlag
  rw [fget_fset_other s p p' f f' _ hf h]

/-- A field after a write of a one-bit field elsewhere. -/
theorem fget_setFlag_other (s : State) (p p' : Nat) (f f' : Fld) (b : Bool) (hf : f.lsb + f.w ≤ 32)
    (h : ra p' f'.off ≠ ra p f.off ∨ f'.lsb + f'.w ≤ f.lsb ∨ f.lsb + f.w ≤ f'.lsb) : (s.setFlag p f b).fget p' f' = s.fget p' f' :=
  fget_fset_other s p p' f f' _ hf h

/-- A one-bit field after a write of a field elsewhere. -/
theorem flag_fset_other (s : State) (p p' : Nat) (f f' : Fld) (x : Nat) (hf : f.lsb + f.w ≤ 32)
    (h : ra p' f'.off ≠ ra p f.off ∨ f'.lsb + f'.w ≤ f.lsb ∨ f.lsb + f.w ≤ f'.lsb) : (s.fset p f x).flag p' f' = s.flag p' f' := by
  unfold State.flag
  rw [fget_fset_other s p p' f f' _ hf h]

theorem fset_rd_other (s : State) (p : Nat) (f : Fld) (x : Nat) {b : Nat} (h : b ≠ ra p f.off) : (s.fset p f x).rd b = s.rd b := rd_wr_other s _ h

theorem setFlag_rd_other (s : State) (p : Nat) (f : Fld) (x : Bool) {b : Nat} (h : b ≠ ra p f.off) : (s.setFlag p f x).rd b = s.rd b := rd_wr_other s _ h

/-- The word in force of a register after a write of it, and of another. -/
theorem inForce_setForce (s : State) (a b v : Nat) : (s.setForce a v).inForce b = if b = a then v % 2 ^ 32 else s.inForce b := by
  simp only [State.inForce, State.setForce]
  split
  · subst b; simp
  · rw [kget_kput_other _ _ _ _ ‹_›]

end Sys2Proof.Laws
end

