-- ==== Sys2Proof/Laws/State.lean ====
section
/-! SUPPORT. What each update of the state leaves alone, field by field, and what it changes. -/

namespace Sys2Proof.Laws

open Sys2Proof.Machine

variable (s : State)

/-! wr -/

@[simp] theorem wr_force (a : Nat) (v : Nat) : (s.wr a v).force = s.force := rfl
@[simp] theorem wr_target (a v : Nat) : (s.wr a v).target = s.target := rfl
@[simp] theorem wr_held (a : Nat) (v : Nat) : (s.wr a v).held = s.held := rfl
@[simp] theorem wr_mem (a v : Nat) : (s.wr a v).mem = s.mem := rfl
@[simp] theorem wr_chk (a : Nat) (v : Nat) : (s.wr a v).chk = s.chk := rfl
@[simp] theorem wr_wflag (a v : Nat) : (s.wr a v).wflag = s.wflag := rfl
@[simp] theorem wr_rep (a : Nat) (v : Nat) : (s.wr a v).rep = s.rep := rfl
@[simp] theorem wr_ceSeen (a v : Nat) : (s.wr a v).ceSeen = s.ceSeen := rfl
@[simp] theorem wr_scrub (a : Nat) (v : Nat) : (s.wr a v).scrub = s.scrub := rfl
@[simp] theorem wr_scrubNext (a v : Nat) : (s.wr a v).scrubNext = s.scrubNext := rfl
@[simp] theorem wr_memPend (a : Nat) (v : Nat) : (s.wr a v).memPend = s.memPend := rfl
@[simp] theorem wr_lanes (a v : Nat) : (s.wr a v).lanes = s.lanes := rfl
@[simp] theorem wr_hosts (a : Nat) (v : Nat) : (s.wr a v).hosts = s.hosts := rfl
@[simp] theorem wr_presses (a v : Nat) : (s.wr a v).presses = s.presses := rfl
@[simp] theorem wr_twinHeld (a : Nat) (v : Nat) : (s.wr a v).twinHeld = s.twinHeld := rfl
@[simp] theorem wr_evt (a v : Nat) : (s.wr a v).evt = s.evt := rfl
@[simp] theorem wr_pwr (a : Nat) (v : Nat) : (s.wr a v).pwr = s.pwr := rfl
@[simp] theorem wr_time (a v : Nat) : (s.wr a v).time = s.time := rfl
@[simp] theorem wr_obs (a : Nat) (v : Nat) : (s.wr a v).obs = s.obs := rfl
@[simp] theorem wr_caps (a v : Nat) : (s.wr a v).caps = s.caps := rfl
@[simp] theorem wr_trc (a : Nat) (v : Nat) : (s.wr a v).trc = s.trc := rfl
@[simp] theorem wr_eng (a v : Nat) : (s.wr a v).eng = s.eng := rfl
@[simp] theorem wr_seq (a : Nat) (v : Nat) : (s.wr a v).seq = s.seq := rfl
@[simp] theorem wr_cal (a v : Nat) : (s.wr a v).cal = s.cal := rfl
@[simp] theorem wr_ist (a : Nat) (v : Nat) : (s.wr a v).ist = s.ist := rfl
@[simp] theorem wr_las (a v : Nat) : (s.wr a v).las = s.las := rfl
@[simp] theorem wr_adac (a : Nat) (v : Nat) : (s.wr a v).adac = s.adac := rfl
@[simp] theorem wr_hk (a v : Nat) : (s.wr a v).hk = s.hk := rfl
@[simp] theorem wr_wmk (a : Nat) (v : Nat) : (s.wr a v).wmk = s.wmk := rfl
@[simp] theorem wr_banded (a v : Nat) : (s.wr a v).banded = s.banded := rfl
@[simp] theorem wr_roles (a : Nat) (v : Nat) : (s.wr a v).roles = s.roles := rfl
@[simp] theorem wr_mgmt (a v : Nat) : (s.wr a v).mgmt = s.mgmt := rfl
@[simp] theorem wr_sec (a : Nat) (v : Nat) : (s.wr a v).sec = s.sec := rfl
@[simp] theorem wr_nv (a v : Nat) : (s.wr a v).nv = s.nv := rfl
@[simp] theorem wr_boot (a : Nat) (v : Nat) : (s.wr a v).boot = s.boot := rfl
@[simp] theorem wr_drawn (a v : Nat) : (s.wr a v).drawn = s.drawn := rfl
@[simp] theorem wr_pending (a : Nat) (v : Nat) : (s.wr a v).pending = s.pending := rfl
@[simp] theorem wr_inForce (a v : Nat) (r : Nat) : (s.wr a v).inForce r = s.inForce r := rfl
@[simp] theorem wr_byte (a v : Nat) (r : Nat) : (s.wr a v).byte r = s.byte r := rfl
@[simp] theorem wr_chkErr (a v : Nat) (r : Nat) : (s.wr a v).chkErr r = s.chkErr r := rfl

/-! fset -/

@[simp] theorem fset_force (p : Nat) (f : Fld) (x : Nat) : (s.fset p f x).force = s.force := rfl
@[simp] theorem fset_target (p : Nat) (f : Fld) (x : Nat) : (s.fset p f x).target = s.target := rfl
@[simp] theorem fset_held (p : Nat) (f : Fld) (x : Nat) : (s.fset p f x).held = s.held := rfl
@[simp] theorem fset_mem (p : Nat) (f : Fld) (x : Nat) : (s.fset p f x).mem = s.mem := rfl
@[simp] theorem fset_chk (p : Nat) (f : Fld) (x : Nat) : (s.fset p f x).chk = s.chk := rfl
@[simp] theorem fset_wflag (p : Nat) (f : Fld) (x : Nat) : (s.fset p f x).wflag = s.wflag := rfl
@[simp] theorem fset_rep (p : Nat) (f : Fld) (x : Nat) : (s.fset p f x).rep = s.rep := rfl
@[simp] theorem fset_ceSeen (p : Nat) (f : Fld) (x : Nat) : (s.fset p f x).ceSeen = s.ceSeen := rfl
@[simp] theorem fset_scrub (p : Nat) (f : Fld) (x : Nat) : (s.fset p f x).scrub = s.scrub := rfl
@[simp] theorem fset_scrubNext (p : Nat) (f : Fld) (x : Nat) : (s.fset p f x).scrubNext = s.scrubNext := rfl
@[simp] theorem fset_memPend (p : Nat) (f : Fld) (x : Nat) : (s.fset p f x).memPend = s.memPend := rfl
@[simp] theorem fset_lanes (p : Nat) (f : Fld) (x : Nat) : (s.fset p f x).lanes = s.lanes := rfl
@[simp] theorem fset_hosts (p : Nat) (f : Fld) (x : Nat) : (s.fset p f x).hosts = s.hosts := rfl
@[simp] theorem fset_presses (p : Nat) (f : Fld) (x : Nat) : (s.fset p f x).presses = s.presses := rfl
@[simp] theorem fset_twinHeld (p : Nat) (f : Fld) (x : Nat) : (s.fset p f x).twinHeld = s.twinHeld := rfl
@[simp] theorem fset_evt (p : Nat) (f : Fld) (x : Nat) : (s.fset p f x).evt = s.evt := rfl
@[simp] theorem fset_pwr (p : Nat) (f : Fld) (x : Nat) : (s.fset p f x).pwr = s.pwr := rfl
@[simp] theorem fset_time (p : Nat) (f : Fld) (x : Nat) : (s.fset p f x).time = s.time := rfl
@[simp] theorem fset_obs (p : Nat) (f : Fld) (x : Nat) : (s.fset p f x).obs = s.obs := rfl
@[simp] theorem fset_caps (p : Nat) (f : Fld) (x : Nat) : (s.fset p f x).caps = s.caps := rfl
@[simp] theorem fset_trc (p : Nat) (f : Fld) (x : Nat) : (s.fset p f x).trc = s.trc := rfl
@[simp] theorem fset_eng (p : Nat) (f : Fld) (x : Nat) : (s.fset p f x).eng = s.eng := rfl
@[simp] theorem fset_seq (p : Nat) (f : Fld) (x : Nat) : (s.fset p f x).seq = s.seq := rfl
@[simp] theorem fset_cal (p : Nat) (f : Fld) (x : Nat) : (s.fset p f x).cal = s.cal := rfl
@[simp] theorem fset_ist (p : Nat) (f : Fld) (x : Nat) : (s.fset p f x).ist = s.ist := rfl
@[simp] theorem fset_las (p : Nat) (f : Fld) (x : Nat) : (s.fset p f x).las = s.las := rfl
@[simp] theorem fset_adac (p : Nat) (f : Fld) (x : Nat) : (s.fset p f x).adac = s.adac := rfl
@[simp] theorem fset_hk (p : Nat) (f : Fld) (x : Nat) : (s.fset p f x).hk = s.hk := rfl
@[simp] theorem fset_wmk (p : Nat) (f : Fld) (x : Nat) : (s.fset p f x).wmk = s.wmk := rfl
@[simp] theorem fset_banded (p : Nat) (f : Fld) (x : Nat) : (s.fset p f x).banded = s.banded := rfl
@[simp] theorem fset_roles (p : Nat) (f : Fld) (x : Nat) : (s.fset p f x).roles = s.roles := rfl
@[simp] theorem fset_mgmt (p : Nat) (f : Fld) (x : Nat) : (s.fset p f x).mgmt = s.mgmt := rfl
@[simp] theorem fset_sec (p : Nat) (f : Fld) (x : Nat) : (s.fset p f x).sec = s.sec := rfl
@[simp] theorem fset_nv (p : Nat) (f : Fld) (x : Nat) : (s.fset p f x).nv = s.nv := rfl
@[simp] theorem fset_boot (p : Nat) (f : Fld) (x : Nat) : (s.fset p f x).boot = s.boot := rfl
@[simp] theorem fset_drawn (p : Nat) (f : Fld) (x : Nat) : (s.fset p f x).drawn = s.drawn := rfl
@[simp] theorem fset_pending (p : Nat) (f : Fld) (x : Nat) : (s.fset p f x).pending = s.pending := rfl
@[simp] theorem fset_inForce (p : Nat) (f : Fld) (x : Nat) (r : Nat) : (s.fset p f x).inForce r = s.inForce r := rfl
@[simp] theorem fset_byte (p : Nat) (f : Fld) (x : Nat) (r : Nat) : (s.fset p f x).byte r = s.byte r := rfl
@[simp] theorem fset_chkErr (p : Nat) (f : Fld) (x : Nat) (r : Nat) : (s.fset p f x).chkErr r = s.chkErr r := rfl

/-! setForce -/

@[simp] theorem setForce_regs (a v : Nat) : (s.setForce a v).regs = s.regs := rfl
@[simp] theorem setForce_target (a : Nat) (v : Nat) : (s.setForce a v).target = s.target := rfl
@[simp] theorem setForce_held (a v : Nat) : (s.setForce a v).held = s.held := rfl
@[simp] theorem setForce_mem (a : Nat) (v : Nat) : (s.setForce a v).mem = s.mem := rfl
@[simp] theorem setForce_chk (a v : Nat) : (s.setForce a v).chk = s.chk := rfl
@[simp] theorem setForce_wflag (a : Nat) (v : Nat) : (s.setForce a v).wflag = s.wflag := rfl
@[simp] theorem setForce_rep (a v : Nat) : (s.setForce a v).rep = s.rep := rfl
@[simp] theorem setForce_ceSeen (a : Nat) (v : Nat) : (s.setForce a v).ceSeen = s.ceSeen := rfl
@[simp] theorem setForce_scrub (a v : Nat) : (s.setForce a v).scrub = s.scrub := rfl
@[simp] theorem setForce_scrubNext (a : Nat) (v : Nat) : (s.setForce a v).scrubNext = s.scrubNext := rfl
@[simp] theorem setForce_memPend (a v : Nat) : (s.setForce a v).memPend = s.memPend := rfl
@[simp] theorem setForce_lanes (a : Nat) (v : Nat) : (s.setForce a v).lanes = s.lanes := rfl
@[simp] theorem setForce_hosts (a v : Nat) : (s.setForce a v).hosts = s.hosts := rfl
@[simp] theorem setForce_presses (a : Nat) (v : Nat) : (s.setForce a v).presses = s.presses := rfl
@[simp] theorem setForce_twinHeld (a v : Nat) : (s.setForce a v).twinHeld = s.twinHeld := rfl
@[simp] theorem setForce_evt (a : Nat) (v : Nat) : (s.setForce a v).evt = s.evt := rfl
@[simp] theorem setForce_pwr (a v : Nat) : (s.setForce a v).pwr = s.pwr := rfl
@[simp] theorem setForce_time (a : Nat) (v : Nat) : (s.setForce a v).time = s.time := rfl
@[simp] theorem setForce_obs (a v : Nat) : (s.setForce a v).obs = s.obs := rfl
@[simp] theorem setForce_caps (a : Nat) (v : Nat) : (s.setForce a v).caps = s.caps := rfl
@[simp] theorem setForce_trc (a v : Nat) : (s.setForce a v).trc = s.trc := rfl
@[simp] theorem setForce_eng (a : Nat) (v : Nat) : (s.setForce a v).eng = s.eng := rfl
@[simp] theorem setForce_seq (a v : Nat) : (s.setForce a v).seq = s.seq := rfl
@[simp] theorem setForce_cal (a : Nat) (v : Nat) : (s.setForce a v).cal = s.cal := rfl
@[simp] theorem setForce_ist (a v : Nat) : (s.setForce a v).ist = s.ist := rfl
@[simp] theorem setForce_las (a : Nat) (v : Nat) : (s.setForce a v).las = s.las := rfl
@[simp] theorem setForce_adac (a v : Nat) : (s.setForce a v).adac = s.adac := rfl
@[simp] theorem setForce_hk (a : Nat) (v : Nat) : (s.setForce a v).hk = s.hk := rfl
@[simp] theorem setForce_wmk (a v : Nat) : (s.setForce a v).wmk = s.wmk := rfl
@[simp] theorem setForce_banded (a : Nat) (v : Nat) : (s.setForce a v).banded = s.banded := rfl
@[simp] theorem setForce_roles (a v : Nat) : (s.setForce a v).roles = s.roles := rfl
@[simp] theorem setForce_mgmt (a : Nat) (v : Nat) : (s.setForce a v).mgmt = s.mgmt := rfl
@[simp] theorem setForce_sec (a v : Nat) : (s.setForce a v).sec = s.sec := rfl
@[simp] theorem setForce_nv (a : Nat) (v : Nat) : (s.setForce a v).nv = s.nv := rfl
@[simp] theorem setForce_boot (a v : Nat) : (s.setForce a v).boot = s.boot := rfl
@[simp] theorem setForce_drawn (a : Nat) (v : Nat) : (s.setForce a v).drawn = s.drawn := rfl
@[simp] theorem setForce_pending (a v : Nat) : (s.setForce a v).pending = s.pending := rfl
@[simp] theorem setForce_rd (a v : Nat) (r : Nat) : (s.setForce a v).rd r = s.rd r := rfl
@[simp] theorem setForce_fget (a v : Nat) (q : Nat) (g : Fld) : (s.setForce a v).fget q g = s.fget q g := rfl
@[simp] theorem setForce_flag (a v : Nat) (q : Nat) (g : Fld) : (s.setForce a v).flag q g = s.flag q g := rfl
@[simp] theorem setForce_byte (a v : Nat) (r : Nat) : (s.setForce a v).byte r = s.byte r := rfl
@[simp] theorem setForce_chkErr (a v : Nat) (r : Nat) : (s.setForce a v).chkErr r = s.chkErr r := rfl

/-! putByte -/

@[simp] theorem putByte_regs (a : Nat) (b : Byte) (e : BitVec 5) : (s.putByte a b e).regs = s.regs := rfl
@[simp] theorem putByte_force (a : Nat) (b : Byte) (e : BitVec 5) : (s.putByte a b e).force = s.force := rfl
@[simp] theorem putByte_target (a : Nat) (b : Byte) (e : BitVec 5) : (s.putByte a b e).target = s.target := rfl
@[simp] theorem putByte_held (a : Nat) (b : Byte) (e : BitVec 5) : (s.putByte a b e).held = s.held := rfl
@[simp] theorem putByte_wflag (a : Nat) (b : Byte) (e : BitVec 5) : (s.putByte a b e).wflag = s.wflag := rfl
@[simp] theorem putByte_rep (a : Nat) (b : Byte) (e : BitVec 5) : (s.putByte a b e).rep = s.rep := rfl
@[simp] theorem putByte_scrub (a : Nat) (b : Byte) (e : BitVec 5) : (s.putByte a b e).scrub = s.scrub := rfl
@[simp] theorem putByte_scrubNext (a : Nat) (b : Byte) (e : BitVec 5) : (s.putByte a b e).scrubNext = s.scrubNext := rfl
@[simp] theorem putByte_memPend (a : Nat) (b : Byte) (e : BitVec 5) : (s.putByte a b e).memPend = s.memPend := rfl
@[simp] theorem putByte_lanes (a : Nat) (b : Byte) (e : BitVec 5) : (s.putByte a b e).lanes = s.lanes := rfl
@[simp] theorem putByte_hosts (a : Nat) (b : Byte) (e : BitVec 5) : (s.putByte a b e).hosts = s.hosts := rfl
@[simp] theorem putByte_presses (a : Nat) (b : Byte) (e : BitVec 5) : (s.putByte a b e).presses = s.presses := rfl
@[simp] theorem putByte_twinHeld (a : Nat) (b : Byte) (e : BitVec 5) : (s.putByte a b e).twinHeld = s.twinHeld := rfl
@[simp] theorem putByte_evt (a : Nat) (b : Byte) (e : BitVec 5) : (s.putByte a b e).evt = s.evt := rfl
@[simp] theorem putByte_pwr (a : Nat) (b : Byte) (e : BitVec 5) : (s.putByte a b e).pwr = s.pwr := rfl
@[simp] theorem putByte_time (a : Nat) (b : Byte) (e : BitVec 5) : (s.putByte a b e).time = s.time := rfl
@[simp] theorem putByte_obs (a : Nat) (b : Byte) (e : BitVec 5) : (s.putByte a b e).obs = s.obs := rfl
@[simp] theorem putByte_caps (a : Nat) (b : Byte) (e : BitVec 5) : (s.putByte a b e).caps = s.caps := rfl
@[simp] theorem putByte_trc (a : Nat) (b : Byte) (e : BitVec 5) : (s.putByte a b e).trc = s.trc := rfl
@[simp] theorem putByte_eng (a : Nat) (b : Byte) (e : BitVec 5) : (s.putByte a b e).eng = s.eng := rfl
@[simp] theorem putByte_seq (a : Nat) (b : Byte) (e : BitVec 5) : (s.putByte a b e).seq = s.seq := rfl
@[simp] theorem putByte_cal (a : Nat) (b : Byte) (e : BitVec 5) : (s.putByte a b e).cal = s.cal := rfl
@[simp] theorem putByte_ist (a : Nat) (b : Byte) (e : BitVec 5) : (s.putByte a b e).ist = s.ist := rfl
@[simp] theorem putByte_las (a : Nat) (b : Byte) (e : BitVec 5) : (s.putByte a b e).las = s.las := rfl
@[simp] theorem putByte_adac (a : Nat) (b : Byte) (e : BitVec 5) : (s.putByte a b e).adac = s.adac := rfl
@[simp] theorem putByte_hk (a : Nat) (b : Byte) (e : BitVec 5) : (s.putByte a b e).hk = s.hk := rfl
@[simp] theorem putByte_wmk (a : Nat) (b : Byte) (e : BitVec 5) : (s.putByte a b e).wmk = s.wmk := rfl
@[simp] theorem putByte_banded (a : Nat) (b : Byte) (e : BitVec 5) : (s.putByte a b e).banded = s.banded := rfl
@[simp] theorem putByte_roles (a : Nat) (b : Byte) (e : BitVec 5) : (s.putByte a b e).roles = s.roles := rfl
@[simp] theorem putByte_mgmt (a : Nat) (b : Byte) (e : BitVec 5) : (s.putByte a b e).mgmt = s.mgmt := rfl
@[simp] theorem putByte_sec (a : Nat) (b : Byte) (e : BitVec 5) : (s.putByte a b e).sec = s.sec := rfl
@[simp] theorem putByte_nv (a : Nat) (b : Byte) (e : BitVec 5) : (s.putByte a b e).nv = s.nv := rfl
@[simp] theorem putByte_boot (a : Nat) (b : Byte) (e : BitVec 5) : (s.putByte a b e).boot = s.boot := rfl
@[simp] theorem putByte_drawn (a : Nat) (b : Byte) (e : BitVec 5) : (s.putByte a b e).drawn = s.drawn := rfl
@[simp] theorem putByte_pending (a : Nat) (b : Byte) (e : BitVec 5) : (s.putByte a b e).pending = s.pending := rfl
@[simp] theorem putByte_rd (a : Nat) (b : Byte) (e : BitVec 5) (r : Nat) : (s.putByte a b e).rd r = s.rd r := rfl
@[simp] theorem putByte_fget (a : Nat) (b : Byte) (e : BitVec 5) (q : Nat) (g : Fld) : (s.putByte a b e).fget q g = s.fget q g := rfl
@[simp] theorem putByte_flag (a : Nat) (b : Byte) (e : BitVec 5) (q : Nat) (g : Fld) : (s.putByte a b e).flag q g = s.flag q g := rfl
@[simp] theorem putByte_inForce (a : Nat) (b : Byte) (e : BitVec 5) (r : Nat) : (s.putByte a b e).inForce r = s.inForce r := rfl

/-! setLane -/

@[simp] theorem setLane_regs (n : Lane) (f : LaneSt → LaneSt) : (s.setLane n f).regs = s.regs := rfl
@[simp] theorem setLane_force (n : Lane) (f : LaneSt → LaneSt) : (s.setLane n f).force = s.force := rfl
@[simp] theorem setLane_target (n : Lane) (f : LaneSt → LaneSt) : (s.setLane n f).target = s.target := rfl
@[simp] theorem setLane_held (n : Lane) (f : LaneSt → LaneSt) : (s.setLane n f).held = s.held := rfl
@[simp] theorem setLane_mem (n : Lane) (f : LaneSt → LaneSt) : (s.setLane n f).mem = s.mem := rfl
@[simp] theorem setLane_chk (n : Lane) (f : LaneSt → LaneSt) : (s.setLane n f).chk = s.chk := rfl
@[simp] theorem setLane_wflag (n : Lane) (f : LaneSt → LaneSt) : (s.setLane n f).wflag = s.wflag := rfl
@[simp] theorem setLane_rep (n : Lane) (f : LaneSt → LaneSt) : (s.setLane n f).rep = s.rep := rfl
@[simp] theorem setLane_ceSeen (n : Lane) (f : LaneSt → LaneSt) : (s.setLane n f).ceSeen = s.ceSeen := rfl
@[simp] theorem setLane_scrub (n : Lane) (f : LaneSt → LaneSt) : (s.setLane n f).scrub = s.scrub := rfl
@[simp] theorem setLane_scrubNext (n : Lane) (f : LaneSt → LaneSt) : (s.setLane n f).scrubNext = s.scrubNext := rfl
@[simp] theorem setLane_memPend (n : Lane) (f : LaneSt → LaneSt) : (s.setLane n f).memPend = s.memPend := rfl
@[simp] theorem setLane_hosts (n : Lane) (f : LaneSt → LaneSt) : (s.setLane n f).hosts = s.hosts := rfl
@[simp] theorem setLane_presses (n : Lane) (f : LaneSt → LaneSt) : (s.setLane n f).presses = s.presses := rfl
@[simp] theorem setLane_twinHeld (n : Lane) (f : LaneSt → LaneSt) : (s.setLane n f).twinHeld = s.twinHeld := rfl
@[simp] theorem setLane_evt (n : Lane) (f : LaneSt → LaneSt) : (s.setLane n f).evt = s.evt := rfl
@[simp] theorem setLane_pwr (n : Lane) (f : LaneSt → LaneSt) : (s.setLane n f).pwr = s.pwr := rfl
@[simp] theorem setLane_time (n : Lane) (f : LaneSt → LaneSt) : (s.setLane n f).time = s.time := rfl
@[simp] theorem setLane_obs (n : Lane) (f : LaneSt → LaneSt) : (s.setLane n f).obs = s.obs := rfl
@[simp] theorem setLane_caps (n : Lane) (f : LaneSt → LaneSt) : (s.setLane n f).caps = s.caps := rfl
@[simp] theorem setLane_trc (n : Lane) (f : LaneSt → LaneSt) : (s.setLane n f).trc = s.trc := rfl
@[simp] theorem setLane_eng (n : Lane) (f : LaneSt → LaneSt) : (s.setLane n f).eng = s.eng := rfl
@[simp] theorem setLane_seq (n : Lane) (f : LaneSt → LaneSt) : (s.setLane n f).seq = s.seq := rfl
@[simp] theorem setLane_cal (n : Lane) (f : LaneSt → LaneSt) : (s.setLane n f).cal = s.cal := rfl
@[simp] theorem setLane_ist (n : Lane) (f : LaneSt → LaneSt) : (s.setLane n f).ist = s.ist := rfl
@[simp] theorem setLane_las (n : Lane) (f : LaneSt → LaneSt) : (s.setLane n f).las = s.las := rfl
@[simp] theorem setLane_adac (n : Lane) (f : LaneSt → LaneSt) : (s.setLane n f).adac = s.adac := rfl
@[simp] theorem setLane_hk (n : Lane) (f : LaneSt → LaneSt) : (s.setLane n f).hk = s.hk := rfl
@[simp] theorem setLane_wmk (n : Lane) (f : LaneSt → LaneSt) : (s.setLane n f).wmk = s.wmk := rfl
@[simp] theorem setLane_banded (n : Lane) (f : LaneSt → LaneSt) : (s.setLane n f).banded = s.banded := rfl
@[simp] theorem setLane_roles (n : Lane) (f : LaneSt → LaneSt) : (s.setLane n f).roles = s.roles := rfl
@[simp] theorem setLane_mgmt (n : Lane) (f : LaneSt → LaneSt) : (s.setLane n f).mgmt = s.mgmt := rfl
@[simp] theorem setLane_sec (n : Lane) (f : LaneSt → LaneSt) : (s.setLane n f).sec = s.sec := rfl
@[simp] theorem setLane_nv (n : Lane) (f : LaneSt → LaneSt) : (s.setLane n f).nv = s.nv := rfl
@[simp] theorem setLane_boot (n : Lane) (f : LaneSt → LaneSt) : (s.setLane n f).boot = s.boot := rfl
@[simp] theorem setLane_drawn (n : Lane) (f : LaneSt → LaneSt) : (s.setLane n f).drawn = s.drawn := rfl
@[simp] theorem setLane_pending (n : Lane) (f : LaneSt → LaneSt) : (s.setLane n f).pending = s.pending := rfl
@[simp] theorem setLane_rd (n : Lane) (f : LaneSt → LaneSt) (r : Nat) : (s.setLane n f).rd r = s.rd r := rfl
@[simp] theorem setLane_fget (n : Lane) (f : LaneSt → LaneSt) (q : Nat) (g : Fld) : (s.setLane n f).fget q g = s.fget q g := rfl
@[simp] theorem setLane_flag (n : Lane) (f : LaneSt → LaneSt) (q : Nat) (g : Fld) : (s.setLane n f).flag q g = s.flag q g := rfl
@[simp] theorem setLane_inForce (n : Lane) (f : LaneSt → LaneSt) (r : Nat) : (s.setLane n f).inForce r = s.inForce r := rfl
@[simp] theorem setLane_byte (n : Lane) (f : LaneSt → LaneSt) (r : Nat) : (s.setLane n f).byte r = s.byte r := rfl
@[simp] theorem setLane_chkErr (n : Lane) (f : LaneSt → LaneSt) (r : Nat) : (s.setLane n f).chkErr r = s.chkErr r := rfl
@[simp] theorem setLane_same (n : Lane) (f : LaneSt → LaneSt) : (s.setLane n f).lanes[n.val] = f s.lanes[n.val] := by simp [State.setLane]
theorem setLane_other (n : Lane) (f : LaneSt → LaneSt) (j : Lane) (hj : j ≠ n) : (s.setLane n f).lanes[j.val] = s.lanes[j.val] := by
  have hv : n.val ≠ j.val := fun q => hj (Fin.ext q.symm)
  simp [State.setLane, hv]

/-! setHost -/

@[simp] theorem setHost_regs (h : Host16) (f : HostSt → HostSt) : (s.setHost h f).regs = s.regs := rfl
@[simp] theorem setHost_force (h : Host16) (f : HostSt → HostSt) : (s.setHost h f).force = s.force := rfl
@[simp] theorem setHost_target (h : Host16) (f : HostSt → HostSt) : (s.setHost h f).target = s.target := rfl
@[simp] theorem setHost_held (h : Host16) (f : HostSt → HostSt) : (s.setHost h f).held = s.held := rfl
@[simp] theorem setHost_mem (h : Host16) (f : HostSt → HostSt) : (s.setHost h f).mem = s.mem := rfl
@[simp] theorem setHost_chk (h : Host16) (f : HostSt → HostSt) : (s.setHost h f).chk = s.chk := rfl
@[simp] theorem setHost_wflag (h : Host16) (f : HostSt → HostSt) : (s.setHost h f).wflag = s.wflag := rfl
@[simp] theorem setHost_rep (h : Host16) (f : HostSt → HostSt) : (s.setHost h f).rep = s.rep := rfl
@[simp] theorem setHost_ceSeen (h : Host16) (f : HostSt → HostSt) : (s.setHost h f).ceSeen = s.ceSeen := rfl
@[simp] theorem setHost_scrub (h : Host16) (f : HostSt → HostSt) : (s.setHost h f).scrub = s.scrub := rfl
@[simp] theorem setHost_scrubNext (h : Host16) (f : HostSt → HostSt) : (s.setHost h f).scrubNext = s.scrubNext := rfl
@[simp] theorem setHost_memPend (h : Host16) (f : HostSt → HostSt) : (s.setHost h f).memPend = s.memPend := rfl
@[simp] theorem setHost_lanes (h : Host16) (f : HostSt → HostSt) : (s.setHost h f).lanes = s.lanes := rfl
@[simp] theorem setHost_presses (h : Host16) (f : HostSt → HostSt) : (s.setHost h f).presses = s.presses := rfl
@[simp] theorem setHost_twinHeld (h : Host16) (f : HostSt → HostSt) : (s.setHost h f).twinHeld = s.twinHeld := rfl
@[simp] theorem setHost_evt (h : Host16) (f : HostSt → HostSt) : (s.setHost h f).evt = s.evt := rfl
@[simp] theorem setHost_pwr (h : Host16) (f : HostSt → HostSt) : (s.setHost h f).pwr = s.pwr := rfl
@[simp] theorem setHost_time (h : Host16) (f : HostSt → HostSt) : (s.setHost h f).time = s.time := rfl
@[simp] theorem setHost_obs (h : Host16) (f : HostSt → HostSt) : (s.setHost h f).obs = s.obs := rfl
@[simp] theorem setHost_caps (h : Host16) (f : HostSt → HostSt) : (s.setHost h f).caps = s.caps := rfl
@[simp] theorem setHost_trc (h : Host16) (f : HostSt → HostSt) : (s.setHost h f).trc = s.trc := rfl
@[simp] theorem setHost_eng (h : Host16) (f : HostSt → HostSt) : (s.setHost h f).eng = s.eng := rfl
@[simp] theorem setHost_seq (h : Host16) (f : HostSt → HostSt) : (s.setHost h f).seq = s.seq := rfl
@[simp] theorem setHost_cal (h : Host16) (f : HostSt → HostSt) : (s.setHost h f).cal = s.cal := rfl
@[simp] theorem setHost_ist (h : Host16) (f : HostSt → HostSt) : (s.setHost h f).ist = s.ist := rfl
@[simp] theorem setHost_las (h : Host16) (f : HostSt → HostSt) : (s.setHost h f).las = s.las := rfl
@[simp] theorem setHost_adac (h : Host16) (f : HostSt → HostSt) : (s.setHost h f).adac = s.adac := rfl
@[simp] theorem setHost_hk (h : Host16) (f : HostSt → HostSt) : (s.setHost h f).hk = s.hk := rfl
@[simp] theorem setHost_wmk (h : Host16) (f : HostSt → HostSt) : (s.setHost h f).wmk = s.wmk := rfl
@[simp] theorem setHost_banded (h : Host16) (f : HostSt → HostSt) : (s.setHost h f).banded = s.banded := rfl
@[simp] theorem setHost_roles (h : Host16) (f : HostSt → HostSt) : (s.setHost h f).roles = s.roles := rfl
@[simp] theorem setHost_mgmt (h : Host16) (f : HostSt → HostSt) : (s.setHost h f).mgmt = s.mgmt := rfl
@[simp] theorem setHost_sec (h : Host16) (f : HostSt → HostSt) : (s.setHost h f).sec = s.sec := rfl
@[simp] theorem setHost_nv (h : Host16) (f : HostSt → HostSt) : (s.setHost h f).nv = s.nv := rfl
@[simp] theorem setHost_boot (h : Host16) (f : HostSt → HostSt) : (s.setHost h f).boot = s.boot := rfl
@[simp] theorem setHost_drawn (h : Host16) (f : HostSt → HostSt) : (s.setHost h f).drawn = s.drawn := rfl
@[simp] theorem setHost_pending (h : Host16) (f : HostSt → HostSt) : (s.setHost h f).pending = s.pending := rfl
@[simp] theorem setHost_rd (h : Host16) (f : HostSt → HostSt) (r : Nat) : (s.setHost h f).rd r = s.rd r := rfl
@[simp] theorem setHost_fget (h : Host16) (f : HostSt → HostSt) (q : Nat) (g : Fld) : (s.setHost h f).fget q g = s.fget q g := rfl
@[simp] theorem setHost_flag (h : Host16) (f : HostSt → HostSt) (q : Nat) (g : Fld) : (s.setHost h f).flag q g = s.flag q g := rfl
@[simp] theorem setHost_inForce (h : Host16) (f : HostSt → HostSt) (r : Nat) : (s.setHost h f).inForce r = s.inForce r := rfl
@[simp] theorem setHost_byte (h : Host16) (f : HostSt → HostSt) (r : Nat) : (s.setHost h f).byte r = s.byte r := rfl
@[simp] theorem setHost_chkErr (h : Host16) (f : HostSt → HostSt) (r : Nat) : (s.setHost h f).chkErr r = s.chkErr r := rfl
@[simp] theorem setHost_same (h : Host16) (f : HostSt → HostSt) : (s.setHost h f).hosts[h.val] = f s.hosts[h.val] := by simp [State.setHost]
theorem setHost_other (h : Host16) (f : HostSt → HostSt) (j : Host16) (hj : j ≠ h) : (s.setHost h f).hosts[j.val] = s.hosts[j.val] := by
  have hv : h.val ≠ j.val := fun q => hj (Fin.ext q.symm)
  simp [State.setHost, hv]

/-! setEng -/

@[simp] theorem setEng_regs (e : Eng) (f : EngSt → EngSt) : (s.setEng e f).regs = s.regs := rfl
@[simp] theorem setEng_force (e : Eng) (f : EngSt → EngSt) : (s.setEng e f).force = s.force := rfl
@[simp] theorem setEng_target (e : Eng) (f : EngSt → EngSt) : (s.setEng e f).target = s.target := rfl
@[simp] theorem setEng_held (e : Eng) (f : EngSt → EngSt) : (s.setEng e f).held = s.held := rfl
@[simp] theorem setEng_mem (e : Eng) (f : EngSt → EngSt) : (s.setEng e f).mem = s.mem := rfl
@[simp] theorem setEng_chk (e : Eng) (f : EngSt → EngSt) : (s.setEng e f).chk = s.chk := rfl
@[simp] theorem setEng_wflag (e : Eng) (f : EngSt → EngSt) : (s.setEng e f).wflag = s.wflag := rfl
@[simp] theorem setEng_rep (e : Eng) (f : EngSt → EngSt) : (s.setEng e f).rep = s.rep := rfl
@[simp] theorem setEng_ceSeen (e : Eng) (f : EngSt → EngSt) : (s.setEng e f).ceSeen = s.ceSeen := rfl
@[simp] theorem setEng_scrub (e : Eng) (f : EngSt → EngSt) : (s.setEng e f).scrub = s.scrub := rfl
@[simp] theorem setEng_scrubNext (e : Eng) (f : EngSt → EngSt) : (s.setEng e f).scrubNext = s.scrubNext := rfl
@[simp] theorem setEng_memPend (e : Eng) (f : EngSt → EngSt) : (s.setEng e f).memPend = s.memPend := rfl
@[simp] theorem setEng_lanes (e : Eng) (f : EngSt → EngSt) : (s.setEng e f).lanes = s.lanes := rfl
@[simp] theorem setEng_hosts (e : Eng) (f : EngSt → EngSt) : (s.setEng e f).hosts = s.hosts := rfl
@[simp] theorem setEng_presses (e : Eng) (f : EngSt → EngSt) : (s.setEng e f).presses = s.presses := rfl
@[simp] theorem setEng_twinHeld (e : Eng) (f : EngSt → EngSt) : (s.setEng e f).twinHeld = s.twinHeld := rfl
@[simp] theorem setEng_evt (e : Eng) (f : EngSt → EngSt) : (s.setEng e f).evt = s.evt := rfl
@[simp] theorem setEng_pwr (e : Eng) (f : EngSt → EngSt) : (s.setEng e f).pwr = s.pwr := rfl
@[simp] theorem setEng_time (e : Eng) (f : EngSt → EngSt) : (s.setEng e f).time = s.time := rfl
@[simp] theorem setEng_obs (e : Eng) (f : EngSt → EngSt) : (s.setEng e f).obs = s.obs := rfl
@[simp] theorem setEng_caps (e : Eng) (f : EngSt → EngSt) : (s.setEng e f).caps = s.caps := rfl
@[simp] theorem setEng_trc (e : Eng) (f : EngSt → EngSt) : (s.setEng e f).trc = s.trc := rfl
@[simp] theorem setEng_seq (e : Eng) (f : EngSt → EngSt) : (s.setEng e f).seq = s.seq := rfl
@[simp] theorem setEng_cal (e : Eng) (f : EngSt → EngSt) : (s.setEng e f).cal = s.cal := rfl
@[simp] theorem setEng_ist (e : Eng) (f : EngSt → EngSt) : (s.setEng e f).ist = s.ist := rfl
@[simp] theorem setEng_las (e : Eng) (f : EngSt → EngSt) : (s.setEng e f).las = s.las := rfl
@[simp] theorem setEng_adac (e : Eng) (f : EngSt → EngSt) : (s.setEng e f).adac = s.adac := rfl
@[simp] theorem setEng_hk (e : Eng) (f : EngSt → EngSt) : (s.setEng e f).hk = s.hk := rfl
@[simp] theorem setEng_wmk (e : Eng) (f : EngSt → EngSt) : (s.setEng e f).wmk = s.wmk := rfl
@[simp] theorem setEng_banded (e : Eng) (f : EngSt → EngSt) : (s.setEng e f).banded = s.banded := rfl
@[simp] theorem setEng_roles (e : Eng) (f : EngSt → EngSt) : (s.setEng e f).roles = s.roles := rfl
@[simp] theorem setEng_mgmt (e : Eng) (f : EngSt → EngSt) : (s.setEng e f).mgmt = s.mgmt := rfl
@[simp] theorem setEng_sec (e : Eng) (f : EngSt → EngSt) : (s.setEng e f).sec = s.sec := rfl
@[simp] theorem setEng_nv (e : Eng) (f : EngSt → EngSt) : (s.setEng e f).nv = s.nv := rfl
@[simp] theorem setEng_boot (e : Eng) (f : EngSt → EngSt) : (s.setEng e f).boot = s.boot := rfl
@[simp] theorem setEng_drawn (e : Eng) (f : EngSt → EngSt) : (s.setEng e f).drawn = s.drawn := rfl
@[simp] theorem setEng_pending (e : Eng) (f : EngSt → EngSt) : (s.setEng e f).pending = s.pending := rfl
@[simp] theorem setEng_rd (e : Eng) (f : EngSt → EngSt) (r : Nat) : (s.setEng e f).rd r = s.rd r := rfl
@[simp] theorem setEng_fget (e : Eng) (f : EngSt → EngSt) (q : Nat) (g : Fld) : (s.setEng e f).fget q g = s.fget q g := rfl
@[simp] theorem setEng_flag (e : Eng) (f : EngSt → EngSt) (q : Nat) (g : Fld) : (s.setEng e f).flag q g = s.flag q g := rfl
@[simp] theorem setEng_inForce (e : Eng) (f : EngSt → EngSt) (r : Nat) : (s.setEng e f).inForce r = s.inForce r := rfl
@[simp] theorem setEng_byte (e : Eng) (f : EngSt → EngSt) (r : Nat) : (s.setEng e f).byte r = s.byte r := rfl
@[simp] theorem setEng_chkErr (e : Eng) (f : EngSt → EngSt) (r : Nat) : (s.setEng e f).chkErr r = s.chkErr r := rfl
@[simp] theorem setEng_same (e : Eng) (f : EngSt → EngSt) : (s.setEng e f).eng[e.val] = f s.eng[e.val] := by simp [State.setEng]
theorem setEng_other (e : Eng) (f : EngSt → EngSt) (j : Eng) (hj : j ≠ e) : (s.setEng e f).eng[j.val] = s.eng[j.val] := by
  have hv : e.val ≠ j.val := fun q => hj (Fin.ext q.symm)
  simp [State.setEng, hv]

/-! setCap -/

@[simp] theorem setCap_regs (k : Fin 4) (f : CapSt → CapSt) : (s.setCap k f).regs = s.regs := rfl
@[simp] theorem setCap_force (k : Fin 4) (f : CapSt → CapSt) : (s.setCap k f).force = s.force := rfl
@[simp] theorem setCap_target (k : Fin 4) (f : CapSt → CapSt) : (s.setCap k f).target = s.target := rfl
@[simp] theorem setCap_held (k : Fin 4) (f : CapSt → CapSt) : (s.setCap k f).held = s.held := rfl
@[simp] theorem setCap_mem (k : Fin 4) (f : CapSt → CapSt) : (s.setCap k f).mem = s.mem := rfl
@[simp] theorem setCap_chk (k : Fin 4) (f : CapSt → CapSt) : (s.setCap k f).chk = s.chk := rfl
@[simp] theorem setCap_wflag (k : Fin 4) (f : CapSt → CapSt) : (s.setCap k f).wflag = s.wflag := rfl
@[simp] theorem setCap_rep (k : Fin 4) (f : CapSt → CapSt) : (s.setCap k f).rep = s.rep := rfl
@[simp] theorem setCap_ceSeen (k : Fin 4) (f : CapSt → CapSt) : (s.setCap k f).ceSeen = s.ceSeen := rfl
@[simp] theorem setCap_scrub (k : Fin 4) (f : CapSt → CapSt) : (s.setCap k f).scrub = s.scrub := rfl
@[simp] theorem setCap_scrubNext (k : Fin 4) (f : CapSt → CapSt) : (s.setCap k f).scrubNext = s.scrubNext := rfl
@[simp] theorem setCap_memPend (k : Fin 4) (f : CapSt → CapSt) : (s.setCap k f).memPend = s.memPend := rfl
@[simp] theorem setCap_lanes (k : Fin 4) (f : CapSt → CapSt) : (s.setCap k f).lanes = s.lanes := rfl
@[simp] theorem setCap_hosts (k : Fin 4) (f : CapSt → CapSt) : (s.setCap k f).hosts = s.hosts := rfl
@[simp] theorem setCap_presses (k : Fin 4) (f : CapSt → CapSt) : (s.setCap k f).presses = s.presses := rfl
@[simp] theorem setCap_twinHeld (k : Fin 4) (f : CapSt → CapSt) : (s.setCap k f).twinHeld = s.twinHeld := rfl
@[simp] theorem setCap_evt (k : Fin 4) (f : CapSt → CapSt) : (s.setCap k f).evt = s.evt := rfl
@[simp] theorem setCap_pwr (k : Fin 4) (f : CapSt → CapSt) : (s.setCap k f).pwr = s.pwr := rfl
@[simp] theorem setCap_time (k : Fin 4) (f : CapSt → CapSt) : (s.setCap k f).time = s.time := rfl
@[simp] theorem setCap_obs (k : Fin 4) (f : CapSt → CapSt) : (s.setCap k f).obs = s.obs := rfl
@[simp] theorem setCap_trc (k : Fin 4) (f : CapSt → CapSt) : (s.setCap k f).trc = s.trc := rfl
@[simp] theorem setCap_eng (k : Fin 4) (f : CapSt → CapSt) : (s.setCap k f).eng = s.eng := rfl
@[simp] theorem setCap_seq (k : Fin 4) (f : CapSt → CapSt) : (s.setCap k f).seq = s.seq := rfl
@[simp] theorem setCap_cal (k : Fin 4) (f : CapSt → CapSt) : (s.setCap k f).cal = s.cal := rfl
@[simp] theorem setCap_ist (k : Fin 4) (f : CapSt → CapSt) : (s.setCap k f).ist = s.ist := rfl
@[simp] theorem setCap_las (k : Fin 4) (f : CapSt → CapSt) : (s.setCap k f).las = s.las := rfl
@[simp] theorem setCap_adac (k : Fin 4) (f : CapSt → CapSt) : (s.setCap k f).adac = s.adac := rfl
@[simp] theorem setCap_hk (k : Fin 4) (f : CapSt → CapSt) : (s.setCap k f).hk = s.hk := rfl
@[simp] theorem setCap_wmk (k : Fin 4) (f : CapSt → CapSt) : (s.setCap k f).wmk = s.wmk := rfl
@[simp] theorem setCap_banded (k : Fin 4) (f : CapSt → CapSt) : (s.setCap k f).banded = s.banded := rfl
@[simp] theorem setCap_roles (k : Fin 4) (f : CapSt → CapSt) : (s.setCap k f).roles = s.roles := rfl
@[simp] theorem setCap_mgmt (k : Fin 4) (f : CapSt → CapSt) : (s.setCap k f).mgmt = s.mgmt := rfl
@[simp] theorem setCap_sec (k : Fin 4) (f : CapSt → CapSt) : (s.setCap k f).sec = s.sec := rfl
@[simp] theorem setCap_nv (k : Fin 4) (f : CapSt → CapSt) : (s.setCap k f).nv = s.nv := rfl
@[simp] theorem setCap_boot (k : Fin 4) (f : CapSt → CapSt) : (s.setCap k f).boot = s.boot := rfl
@[simp] theorem setCap_drawn (k : Fin 4) (f : CapSt → CapSt) : (s.setCap k f).drawn = s.drawn := rfl
@[simp] theorem setCap_pending (k : Fin 4) (f : CapSt → CapSt) : (s.setCap k f).pending = s.pending := rfl
@[simp] theorem setCap_rd (k : Fin 4) (f : CapSt → CapSt) (r : Nat) : (s.setCap k f).rd r = s.rd r := rfl
@[simp] theorem setCap_fget (k : Fin 4) (f : CapSt → CapSt) (q : Nat) (g : Fld) : (s.setCap k f).fget q g = s.fget q g := rfl
@[simp] theorem setCap_flag (k : Fin 4) (f : CapSt → CapSt) (q : Nat) (g : Fld) : (s.setCap k f).flag q g = s.flag q g := rfl
@[simp] theorem setCap_inForce (k : Fin 4) (f : CapSt → CapSt) (r : Nat) : (s.setCap k f).inForce r = s.inForce r := rfl
@[simp] theorem setCap_byte (k : Fin 4) (f : CapSt → CapSt) (r : Nat) : (s.setCap k f).byte r = s.byte r := rfl
@[simp] theorem setCap_chkErr (k : Fin 4) (f : CapSt → CapSt) (r : Nat) : (s.setCap k f).chkErr r = s.chkErr r := rfl
@[simp] theorem setCap_same (k : Fin 4) (f : CapSt → CapSt) : (s.setCap k f).caps[k.val] = f s.caps[k.val] := by simp [State.setCap]
theorem setCap_other (k : Fin 4) (f : CapSt → CapSt) (j : Fin 4) (hj : j ≠ k) : (s.setCap k f).caps[j.val] = s.caps[j.val] := by
  have hv : k.val ≠ j.val := fun q => hj (Fin.ext q.symm)
  simp [State.setCap, hv]

/-! setCal -/

@[simp] theorem setCal_regs (n : Lane) (f : CalSt → CalSt) : (s.setCal n f).regs = s.regs := rfl
@[simp] theorem setCal_force (n : Lane) (f : CalSt → CalSt) : (s.setCal n f).force = s.force := rfl
@[simp] theorem setCal_target (n : Lane) (f : CalSt → CalSt) : (s.setCal n f).target = s.target := rfl
@[simp] theorem setCal_held (n : Lane) (f : CalSt → CalSt) : (s.setCal n f).held = s.held := rfl
@[simp] theorem setCal_mem (n : Lane) (f : CalSt → CalSt) : (s.setCal n f).mem = s.mem := rfl
@[simp] theorem setCal_chk (n : Lane) (f : CalSt → CalSt) : (s.setCal n f).chk = s.chk := rfl
@[simp] theorem setCal_wflag (n : Lane) (f : CalSt → CalSt) : (s.setCal n f).wflag = s.wflag := rfl
@[simp] theorem setCal_rep (n : Lane) (f : CalSt → CalSt) : (s.setCal n f).rep = s.rep := rfl
@[simp] theorem setCal_ceSeen (n : Lane) (f : CalSt → CalSt) : (s.setCal n f).ceSeen = s.ceSeen := rfl
@[simp] theorem setCal_scrub (n : Lane) (f : CalSt → CalSt) : (s.setCal n f).scrub = s.scrub := rfl
@[simp] theorem setCal_scrubNext (n : Lane) (f : CalSt → CalSt) : (s.setCal n f).scrubNext = s.scrubNext := rfl
@[simp] theorem setCal_memPend (n : Lane) (f : CalSt → CalSt) : (s.setCal n f).memPend = s.memPend := rfl
@[simp] theorem setCal_lanes (n : Lane) (f : CalSt → CalSt) : (s.setCal n f).lanes = s.lanes := rfl
@[simp] theorem setCal_hosts (n : Lane) (f : CalSt → CalSt) : (s.setCal n f).hosts = s.hosts := rfl
@[simp] theorem setCal_presses (n : Lane) (f : CalSt → CalSt) : (s.setCal n f).presses = s.presses := rfl
@[simp] theorem setCal_twinHeld (n : Lane) (f : CalSt → CalSt) : (s.setCal n f).twinHeld = s.twinHeld := rfl
@[simp] theorem setCal_evt (n : Lane) (f : CalSt → CalSt) : (s.setCal n f).evt = s.evt := rfl
@[simp] theorem setCal_pwr (n : Lane) (f : CalSt → CalSt) : (s.setCal n f).pwr = s.pwr := rfl
@[simp] theorem setCal_time (n : Lane) (f : CalSt → CalSt) : (s.setCal n f).time = s.time := rfl
@[simp] theorem setCal_obs (n : Lane) (f : CalSt → CalSt) : (s.setCal n f).obs = s.obs := rfl
@[simp] theorem setCal_caps (n : Lane) (f : CalSt → CalSt) : (s.setCal n f).caps = s.caps := rfl
@[simp] theorem setCal_trc (n : Lane) (f : CalSt → CalSt) : (s.setCal n f).trc = s.trc := rfl
@[simp] theorem setCal_eng (n : Lane) (f : CalSt → CalSt) : (s.setCal n f).eng = s.eng := rfl
@[simp] theorem setCal_seq (n : Lane) (f : CalSt → CalSt) : (s.setCal n f).seq = s.seq := rfl
@[simp] theorem setCal_ist (n : Lane) (f : CalSt → CalSt) : (s.setCal n f).ist = s.ist := rfl
@[simp] theorem setCal_las (n : Lane) (f : CalSt → CalSt) : (s.setCal n f).las = s.las := rfl
@[simp] theorem setCal_adac (n : Lane) (f : CalSt → CalSt) : (s.setCal n f).adac = s.adac := rfl
@[simp] theorem setCal_hk (n : Lane) (f : CalSt → CalSt) : (s.setCal n f).hk = s.hk := rfl
@[simp] theorem setCal_wmk (n : Lane) (f : CalSt → CalSt) : (s.setCal n f).wmk = s.wmk := rfl
@[simp] theorem setCal_banded (n : Lane) (f : CalSt → CalSt) : (s.setCal n f).banded = s.banded := rfl
@[simp] theorem setCal_roles (n : Lane) (f : CalSt → CalSt) : (s.setCal n f).roles = s.roles := rfl
@[simp] theorem setCal_mgmt (n : Lane) (f : CalSt → CalSt) : (s.setCal n f).mgmt = s.mgmt := rfl
@[simp] theorem setCal_sec (n : Lane) (f : CalSt → CalSt) : (s.setCal n f).sec = s.sec := rfl
@[simp] theorem setCal_nv (n : Lane) (f : CalSt → CalSt) : (s.setCal n f).nv = s.nv := rfl
@[simp] theorem setCal_boot (n : Lane) (f : CalSt → CalSt) : (s.setCal n f).boot = s.boot := rfl
@[simp] theorem setCal_drawn (n : Lane) (f : CalSt → CalSt) : (s.setCal n f).drawn = s.drawn := rfl
@[simp] theorem setCal_pending (n : Lane) (f : CalSt → CalSt) : (s.setCal n f).pending = s.pending := rfl
@[simp] theorem setCal_rd (n : Lane) (f : CalSt → CalSt) (r : Nat) : (s.setCal n f).rd r = s.rd r := rfl
@[simp] theorem setCal_fget (n : Lane) (f : CalSt → CalSt) (q : Nat) (g : Fld) : (s.setCal n f).fget q g = s.fget q g := rfl
@[simp] theorem setCal_flag (n : Lane) (f : CalSt → CalSt) (q : Nat) (g : Fld) : (s.setCal n f).flag q g = s.flag q g := rfl
@[simp] theorem setCal_inForce (n : Lane) (f : CalSt → CalSt) (r : Nat) : (s.setCal n f).inForce r = s.inForce r := rfl
@[simp] theorem setCal_byte (n : Lane) (f : CalSt → CalSt) (r : Nat) : (s.setCal n f).byte r = s.byte r := rfl
@[simp] theorem setCal_chkErr (n : Lane) (f : CalSt → CalSt) (r : Nat) : (s.setCal n f).chkErr r = s.chkErr r := rfl
@[simp] theorem setCal_same (n : Lane) (f : CalSt → CalSt) : (s.setCal n f).cal[n.val] = f s.cal[n.val] := by simp [State.setCal]
theorem setCal_other (n : Lane) (f : CalSt → CalSt) (j : Lane) (hj : j ≠ n) : (s.setCal n f).cal[j.val] = s.cal[j.val] := by
  have hv : n.val ≠ j.val := fun q => hj (Fin.ext q.symm)
  simp [State.setCal, hv]

/-! setLas -/

@[simp] theorem setLas_regs (n : Lane) (f : LasSt → LasSt) : (s.setLas n f).regs = s.regs := rfl
@[simp] theorem setLas_force (n : Lane) (f : LasSt → LasSt) : (s.setLas n f).force = s.force := rfl
@[simp] theorem setLas_target (n : Lane) (f : LasSt → LasSt) : (s.setLas n f).target = s.target := rfl
@[simp] theorem setLas_held (n : Lane) (f : LasSt → LasSt) : (s.setLas n f).held = s.held := rfl
@[simp] theorem setLas_mem (n : Lane) (f : LasSt → LasSt) : (s.setLas n f).mem = s.mem := rfl
@[simp] theorem setLas_chk (n : Lane) (f : LasSt → LasSt) : (s.setLas n f).chk = s.chk := rfl
@[simp] theorem setLas_wflag (n : Lane) (f : LasSt → LasSt) : (s.setLas n f).wflag = s.wflag := rfl
@[simp] theorem setLas_rep (n : Lane) (f : LasSt → LasSt) : (s.setLas n f).rep = s.rep := rfl
@[simp] theorem setLas_ceSeen (n : Lane) (f : LasSt → LasSt) : (s.setLas n f).ceSeen = s.ceSeen := rfl
@[simp] theorem setLas_scrub (n : Lane) (f : LasSt → LasSt) : (s.setLas n f).scrub = s.scrub := rfl
@[simp] theorem setLas_scrubNext (n : Lane) (f : LasSt → LasSt) : (s.setLas n f).scrubNext = s.scrubNext := rfl
@[simp] theorem setLas_memPend (n : Lane) (f : LasSt → LasSt) : (s.setLas n f).memPend = s.memPend := rfl
@[simp] theorem setLas_lanes (n : Lane) (f : LasSt → LasSt) : (s.setLas n f).lanes = s.lanes := rfl
@[simp] theorem setLas_hosts (n : Lane) (f : LasSt → LasSt) : (s.setLas n f).hosts = s.hosts := rfl
@[simp] theorem setLas_presses (n : Lane) (f : LasSt → LasSt) : (s.setLas n f).presses = s.presses := rfl
@[simp] theorem setLas_twinHeld (n : Lane) (f : LasSt → LasSt) : (s.setLas n f).twinHeld = s.twinHeld := rfl
@[simp] theorem setLas_evt (n : Lane) (f : LasSt → LasSt) : (s.setLas n f).evt = s.evt := rfl
@[simp] theorem setLas_pwr (n : Lane) (f : LasSt → LasSt) : (s.setLas n f).pwr = s.pwr := rfl
@[simp] theorem setLas_time (n : Lane) (f : LasSt → LasSt) : (s.setLas n f).time = s.time := rfl
@[simp] theorem setLas_obs (n : Lane) (f : LasSt → LasSt) : (s.setLas n f).obs = s.obs := rfl
@[simp] theorem setLas_caps (n : Lane) (f : LasSt → LasSt) : (s.setLas n f).caps = s.caps := rfl
@[simp] theorem setLas_trc (n : Lane) (f : LasSt → LasSt) : (s.setLas n f).trc = s.trc := rfl
@[simp] theorem setLas_eng (n : Lane) (f : LasSt → LasSt) : (s.setLas n f).eng = s.eng := rfl
@[simp] theorem setLas_seq (n : Lane) (f : LasSt → LasSt) : (s.setLas n f).seq = s.seq := rfl
@[simp] theorem setLas_cal (n : Lane) (f : LasSt → LasSt) : (s.setLas n f).cal = s.cal := rfl
@[simp] theorem setLas_ist (n : Lane) (f : LasSt → LasSt) : (s.setLas n f).ist = s.ist := rfl
@[simp] theorem setLas_adac (n : Lane) (f : LasSt → LasSt) : (s.setLas n f).adac = s.adac := rfl
@[simp] theorem setLas_hk (n : Lane) (f : LasSt → LasSt) : (s.setLas n f).hk = s.hk := rfl
@[simp] theorem setLas_wmk (n : Lane) (f : LasSt → LasSt) : (s.setLas n f).wmk = s.wmk := rfl
@[simp] theorem setLas_banded (n : Lane) (f : LasSt → LasSt) : (s.setLas n f).banded = s.banded := rfl
@[simp] theorem setLas_roles (n : Lane) (f : LasSt → LasSt) : (s.setLas n f).roles = s.roles := rfl
@[simp] theorem setLas_mgmt (n : Lane) (f : LasSt → LasSt) : (s.setLas n f).mgmt = s.mgmt := rfl
@[simp] theorem setLas_sec (n : Lane) (f : LasSt → LasSt) : (s.setLas n f).sec = s.sec := rfl
@[simp] theorem setLas_nv (n : Lane) (f : LasSt → LasSt) : (s.setLas n f).nv = s.nv := rfl
@[simp] theorem setLas_boot (n : Lane) (f : LasSt → LasSt) : (s.setLas n f).boot = s.boot := rfl
@[simp] theorem setLas_drawn (n : Lane) (f : LasSt → LasSt) : (s.setLas n f).drawn = s.drawn := rfl
@[simp] theorem setLas_pending (n : Lane) (f : LasSt → LasSt) : (s.setLas n f).pending = s.pending := rfl
@[simp] theorem setLas_rd (n : Lane) (f : LasSt → LasSt) (r : Nat) : (s.setLas n f).rd r = s.rd r := rfl
@[simp] theorem setLas_fget (n : Lane) (f : LasSt → LasSt) (q : Nat) (g : Fld) : (s.setLas n f).fget q g = s.fget q g := rfl
@[simp] theorem setLas_flag (n : Lane) (f : LasSt → LasSt) (q : Nat) (g : Fld) : (s.setLas n f).flag q g = s.flag q g := rfl
@[simp] theorem setLas_inForce (n : Lane) (f : LasSt → LasSt) (r : Nat) : (s.setLas n f).inForce r = s.inForce r := rfl
@[simp] theorem setLas_byte (n : Lane) (f : LasSt → LasSt) (r : Nat) : (s.setLas n f).byte r = s.byte r := rfl
@[simp] theorem setLas_chkErr (n : Lane) (f : LasSt → LasSt) (r : Nat) : (s.setLas n f).chkErr r = s.chkErr r := rfl
@[simp] theorem setLas_same (n : Lane) (f : LasSt → LasSt) : (s.setLas n f).las[n.val] = f s.las[n.val] := by simp [State.setLas]
theorem setLas_other (n : Lane) (f : LasSt → LasSt) (j : Lane) (hj : j ≠ n) : (s.setLas n f).las[j.val] = s.las[j.val] := by
  have hv : n.val ≠ j.val := fun q => hj (Fin.ext q.symm)
  simp [State.setLas, hv]

/-! setHk -/

@[simp] theorem setHk_regs (b : Fin 2) (f : HkSt → HkSt) : (s.setHk b f).regs = s.regs := rfl
@[simp] theorem setHk_force (b : Fin 2) (f : HkSt → HkSt) : (s.setHk b f).force = s.force := rfl
@[simp] theorem setHk_target (b : Fin 2) (f : HkSt → HkSt) : (s.setHk b f).target = s.target := rfl
@[simp] theorem setHk_held (b : Fin 2) (f : HkSt → HkSt) : (s.setHk b f).held = s.held := rfl
@[simp] theorem setHk_mem (b : Fin 2) (f : HkSt → HkSt) : (s.setHk b f).mem = s.mem := rfl
@[simp] theorem setHk_chk (b : Fin 2) (f : HkSt → HkSt) : (s.setHk b f).chk = s.chk := rfl
@[simp] theorem setHk_wflag (b : Fin 2) (f : HkSt → HkSt) : (s.setHk b f).wflag = s.wflag := rfl
@[simp] theorem setHk_rep (b : Fin 2) (f : HkSt → HkSt) : (s.setHk b f).rep = s.rep := rfl
@[simp] theorem setHk_ceSeen (b : Fin 2) (f : HkSt → HkSt) : (s.setHk b f).ceSeen = s.ceSeen := rfl
@[simp] theorem setHk_scrub (b : Fin 2) (f : HkSt → HkSt) : (s.setHk b f).scrub = s.scrub := rfl
@[simp] theorem setHk_scrubNext (b : Fin 2) (f : HkSt → HkSt) : (s.setHk b f).scrubNext = s.scrubNext := rfl
@[simp] theorem setHk_memPend (b : Fin 2) (f : HkSt → HkSt) : (s.setHk b f).memPend = s.memPend := rfl
@[simp] theorem setHk_lanes (b : Fin 2) (f : HkSt → HkSt) : (s.setHk b f).lanes = s.lanes := rfl
@[simp] theorem setHk_hosts (b : Fin 2) (f : HkSt → HkSt) : (s.setHk b f).hosts = s.hosts := rfl
@[simp] theorem setHk_presses (b : Fin 2) (f : HkSt → HkSt) : (s.setHk b f).presses = s.presses := rfl
@[simp] theorem setHk_twinHeld (b : Fin 2) (f : HkSt → HkSt) : (s.setHk b f).twinHeld = s.twinHeld := rfl
@[simp] theorem setHk_evt (b : Fin 2) (f : HkSt → HkSt) : (s.setHk b f).evt = s.evt := rfl
@[simp] theorem setHk_pwr (b : Fin 2) (f : HkSt → HkSt) : (s.setHk b f).pwr = s.pwr := rfl
@[simp] theorem setHk_time (b : Fin 2) (f : HkSt → HkSt) : (s.setHk b f).time = s.time := rfl
@[simp] theorem setHk_obs (b : Fin 2) (f : HkSt → HkSt) : (s.setHk b f).obs = s.obs := rfl
@[simp] theorem setHk_caps (b : Fin 2) (f : HkSt → HkSt) : (s.setHk b f).caps = s.caps := rfl
@[simp] theorem setHk_trc (b : Fin 2) (f : HkSt → HkSt) : (s.setHk b f).trc = s.trc := rfl
@[simp] theorem setHk_eng (b : Fin 2) (f : HkSt → HkSt) : (s.setHk b f).eng = s.eng := rfl
@[simp] theorem setHk_seq (b : Fin 2) (f : HkSt → HkSt) : (s.setHk b f).seq = s.seq := rfl
@[simp] theorem setHk_cal (b : Fin 2) (f : HkSt → HkSt) : (s.setHk b f).cal = s.cal := rfl
@[simp] theorem setHk_ist (b : Fin 2) (f : HkSt → HkSt) : (s.setHk b f).ist = s.ist := rfl
@[simp] theorem setHk_las (b : Fin 2) (f : HkSt → HkSt) : (s.setHk b f).las = s.las := rfl
@[simp] theorem setHk_adac (b : Fin 2) (f : HkSt → HkSt) : (s.setHk b f).adac = s.adac := rfl
@[simp] theorem setHk_wmk (b : Fin 2) (f : HkSt → HkSt) : (s.setHk b f).wmk = s.wmk := rfl
@[simp] theorem setHk_banded (b : Fin 2) (f : HkSt → HkSt) : (s.setHk b f).banded = s.banded := rfl
@[simp] theorem setHk_roles (b : Fin 2) (f : HkSt → HkSt) : (s.setHk b f).roles = s.roles := rfl
@[simp] theorem setHk_mgmt (b : Fin 2) (f : HkSt → HkSt) : (s.setHk b f).mgmt = s.mgmt := rfl
@[simp] theorem setHk_sec (b : Fin 2) (f : HkSt → HkSt) : (s.setHk b f).sec = s.sec := rfl
@[simp] theorem setHk_nv (b : Fin 2) (f : HkSt → HkSt) : (s.setHk b f).nv = s.nv := rfl
@[simp] theorem setHk_boot (b : Fin 2) (f : HkSt → HkSt) : (s.setHk b f).boot = s.boot := rfl
@[simp] theorem setHk_drawn (b : Fin 2) (f : HkSt → HkSt) : (s.setHk b f).drawn = s.drawn := rfl
@[simp] theorem setHk_pending (b : Fin 2) (f : HkSt → HkSt) : (s.setHk b f).pending = s.pending := rfl
@[simp] theorem setHk_rd (b : Fin 2) (f : HkSt → HkSt) (r : Nat) : (s.setHk b f).rd r = s.rd r := rfl
@[simp] theorem setHk_fget (b : Fin 2) (f : HkSt → HkSt) (q : Nat) (g : Fld) : (s.setHk b f).fget q g = s.fget q g := rfl
@[simp] theorem setHk_flag (b : Fin 2) (f : HkSt → HkSt) (q : Nat) (g : Fld) : (s.setHk b f).flag q g = s.flag q g := rfl
@[simp] theorem setHk_inForce (b : Fin 2) (f : HkSt → HkSt) (r : Nat) : (s.setHk b f).inForce r = s.inForce r := rfl
@[simp] theorem setHk_byte (b : Fin 2) (f : HkSt → HkSt) (r : Nat) : (s.setHk b f).byte r = s.byte r := rfl
@[simp] theorem setHk_chkErr (b : Fin 2) (f : HkSt → HkSt) (r : Nat) : (s.setHk b f).chkErr r = s.chkErr r := rfl
@[simp] theorem setHk_same (b : Fin 2) (f : HkSt → HkSt) : (s.setHk b f).hk[b.val] = f s.hk[b.val] := by simp [State.setHk]
theorem setHk_other (b : Fin 2) (f : HkSt → HkSt) (j : Fin 2) (hj : j ≠ b) : (s.setHk b f).hk[j.val] = s.hk[j.val] := by
  have hv : b.val ≠ j.val := fun q => hj (Fin.ext q.symm)
  simp [State.setHk, hv]

/-! setWmk -/

@[simp] theorem setWmk_regs (n : Lane) (f : WmkSt → WmkSt) : (s.setWmk n f).regs = s.regs := rfl
@[simp] theorem setWmk_force (n : Lane) (f : WmkSt → WmkSt) : (s.setWmk n f).force = s.force := rfl
@[simp] theorem setWmk_target (n : Lane) (f : WmkSt → WmkSt) : (s.setWmk n f).target = s.target := rfl
@[simp] theorem setWmk_held (n : Lane) (f : WmkSt → WmkSt) : (s.setWmk n f).held = s.held := rfl
@[simp] theorem setWmk_mem (n : Lane) (f : WmkSt → WmkSt) : (s.setWmk n f).mem = s.mem := rfl
@[simp] theorem setWmk_chk (n : Lane) (f : WmkSt → WmkSt) : (s.setWmk n f).chk = s.chk := rfl
@[simp] theorem setWmk_wflag (n : Lane) (f : WmkSt → WmkSt) : (s.setWmk n f).wflag = s.wflag := rfl
@[simp] theorem setWmk_rep (n : Lane) (f : WmkSt → WmkSt) : (s.setWmk n f).rep = s.rep := rfl
@[simp] theorem setWmk_ceSeen (n : Lane) (f : WmkSt → WmkSt) : (s.setWmk n f).ceSeen = s.ceSeen := rfl
@[simp] theorem setWmk_scrub (n : Lane) (f : WmkSt → WmkSt) : (s.setWmk n f).scrub = s.scrub := rfl
@[simp] theorem setWmk_scrubNext (n : Lane) (f : WmkSt → WmkSt) : (s.setWmk n f).scrubNext = s.scrubNext := rfl
@[simp] theorem setWmk_memPend (n : Lane) (f : WmkSt → WmkSt) : (s.setWmk n f).memPend = s.memPend := rfl
@[simp] theorem setWmk_lanes (n : Lane) (f : WmkSt → WmkSt) : (s.setWmk n f).lanes = s.lanes := rfl
@[simp] theorem setWmk_hosts (n : Lane) (f : WmkSt → WmkSt) : (s.setWmk n f).hosts = s.hosts := rfl
@[simp] theorem setWmk_presses (n : Lane) (f : WmkSt → WmkSt) : (s.setWmk n f).presses = s.presses := rfl
@[simp] theorem setWmk_twinHeld (n : Lane) (f : WmkSt → WmkSt) : (s.setWmk n f).twinHeld = s.twinHeld := rfl
@[simp] theorem setWmk_evt (n : Lane) (f : WmkSt → WmkSt) : (s.setWmk n f).evt = s.evt := rfl
@[simp] theorem setWmk_pwr (n : Lane) (f : WmkSt → WmkSt) : (s.setWmk n f).pwr = s.pwr := rfl
@[simp] theorem setWmk_time (n : Lane) (f : WmkSt → WmkSt) : (s.setWmk n f).time = s.time := rfl
@[simp] theorem setWmk_obs (n : Lane) (f : WmkSt → WmkSt) : (s.setWmk n f).obs = s.obs := rfl
@[simp] theorem setWmk_caps (n : Lane) (f : WmkSt → WmkSt) : (s.setWmk n f).caps = s.caps := rfl
@[simp] theorem setWmk_trc (n : Lane) (f : WmkSt → WmkSt) : (s.setWmk n f).trc = s.trc := rfl
@[simp] theorem setWmk_eng (n : Lane) (f : WmkSt → WmkSt) : (s.setWmk n f).eng = s.eng := rfl
@[simp] theorem setWmk_seq (n : Lane) (f : WmkSt → WmkSt) : (s.setWmk n f).seq = s.seq := rfl
@[simp] theorem setWmk_cal (n : Lane) (f : WmkSt → WmkSt) : (s.setWmk n f).cal = s.cal := rfl
@[simp] theorem setWmk_ist (n : Lane) (f : WmkSt → WmkSt) : (s.setWmk n f).ist = s.ist := rfl
@[simp] theorem setWmk_las (n : Lane) (f : WmkSt → WmkSt) : (s.setWmk n f).las = s.las := rfl
@[simp] theorem setWmk_adac (n : Lane) (f : WmkSt → WmkSt) : (s.setWmk n f).adac = s.adac := rfl
@[simp] theorem setWmk_hk (n : Lane) (f : WmkSt → WmkSt) : (s.setWmk n f).hk = s.hk := rfl
@[simp] theorem setWmk_banded (n : Lane) (f : WmkSt → WmkSt) : (s.setWmk n f).banded = s.banded := rfl
@[simp] theorem setWmk_roles (n : Lane) (f : WmkSt → WmkSt) : (s.setWmk n f).roles = s.roles := rfl
@[simp] theorem setWmk_mgmt (n : Lane) (f : WmkSt → WmkSt) : (s.setWmk n f).mgmt = s.mgmt := rfl
@[simp] theorem setWmk_sec (n : Lane) (f : WmkSt → WmkSt) : (s.setWmk n f).sec = s.sec := rfl
@[simp] theorem setWmk_nv (n : Lane) (f : WmkSt → WmkSt) : (s.setWmk n f).nv = s.nv := rfl
@[simp] theorem setWmk_boot (n : Lane) (f : WmkSt → WmkSt) : (s.setWmk n f).boot = s.boot := rfl
@[simp] theorem setWmk_drawn (n : Lane) (f : WmkSt → WmkSt) : (s.setWmk n f).drawn = s.drawn := rfl
@[simp] theorem setWmk_pending (n : Lane) (f : WmkSt → WmkSt) : (s.setWmk n f).pending = s.pending := rfl
@[simp] theorem setWmk_rd (n : Lane) (f : WmkSt → WmkSt) (r : Nat) : (s.setWmk n f).rd r = s.rd r := rfl
@[simp] theorem setWmk_fget (n : Lane) (f : WmkSt → WmkSt) (q : Nat) (g : Fld) : (s.setWmk n f).fget q g = s.fget q g := rfl
@[simp] theorem setWmk_flag (n : Lane) (f : WmkSt → WmkSt) (q : Nat) (g : Fld) : (s.setWmk n f).flag q g = s.flag q g := rfl
@[simp] theorem setWmk_inForce (n : Lane) (f : WmkSt → WmkSt) (r : Nat) : (s.setWmk n f).inForce r = s.inForce r := rfl
@[simp] theorem setWmk_byte (n : Lane) (f : WmkSt → WmkSt) (r : Nat) : (s.setWmk n f).byte r = s.byte r := rfl
@[simp] theorem setWmk_chkErr (n : Lane) (f : WmkSt → WmkSt) (r : Nat) : (s.setWmk n f).chkErr r = s.chkErr r := rfl
@[simp] theorem setWmk_same (n : Lane) (f : WmkSt → WmkSt) : (s.setWmk n f).wmk[n.val] = f s.wmk[n.val] := by simp [State.setWmk]
theorem setWmk_other (n : Lane) (f : WmkSt → WmkSt) (j : Lane) (hj : j ≠ n) : (s.setWmk n f).wmk[j.val] = s.wmk[j.val] := by
  have hv : n.val ≠ j.val := fun q => hj (Fin.ext q.symm)
  simp [State.setWmk, hv]

end Sys2Proof.Laws
end

