-- ==== Sys2Proof/Laws/Quiet.lean ====
section
/-! SUPPORT. What an occurrence of an event, an addition to a counter and the firing of a binding can do, said once: `OnlyEvents`. -/

namespace Sys2Proof.Laws

open Sys2Proof.Machine

/-! The relation -/

theorem oe_refl (E : List Nat) (s : State) : OnlyEvents E s s :=
  ⟨fun _ _ => rfl, fun _ _ => ⟨rfl, rfl, rfl⟩, fun _ h => h, fun _ h => Or.inl h, ⟨[], by simp, by simp⟩, rfl, ⟨[], [], by simp⟩, rfl, rfl⟩

theorem oe_trans {E : List Nat} {s t u : State} (h : OnlyEvents E s t) (g : OnlyEvents E t u) : OnlyEvents E s u where
  rd a ha := (g.rd a ha).trans (h.rd a ha)
  byte a ha := ⟨(g.byte a ha).1.trans (h.byte a ha).1, (g.byte a ha).2.1.trans (h.byte a ha).2.1, (g.byte a ha).2.2.trans (h.byte a ha).2.2⟩
  stat e he := g.stat e (h.stat e he)
  only e he := (g.only e he).elim (h.only e) Or.inr
  queue := by
    obtain ⟨l, h1, h2⟩ := h.queue
    obtain ⟨k, g1, g2⟩ := g.queue
    refine ⟨l ++ k, by rw [g1, h1, List.append_assoc], fun r hr => ?_⟩
    rcases List.mem_append.mp hr with hr | hr
    · exact h2 r hr
    · exact g2 r hr
  evt := by rw [g.evt, h.evt]
  requests := by
    obtain ⟨l, m, h1⟩ := h.requests
    obtain ⟨k, j, g1⟩ := g.requests
    exact ⟨l ++ k, m ++ j, by rw [g1, h1]; simp⟩
  obs := by rw [g.obs, h.obs]
  rest := by rw [g.rest, h.rest]

theorem oe_mono {E F : List Nat} {s t : State} (h : OnlyEvents E s t) (hs : ∀ e ∈ E, e ∈ F ∨ e ∈ sideEvents) : OnlyEvents F s t where
  rd := h.rd
  byte := h.byte
  stat := h.stat
  only e he := (h.only e he).imp id (fun x => x.elim (hs e) Or.inr)
  queue := by
    obtain ⟨l, h1, h2⟩ := h.queue
    exact ⟨l, h1, fun r hr => (h2 r hr).elim (hs _) Or.inr⟩
  evt := h.evt
  requests := h.requests
  obs := h.obs
  rest := h.rest

theorem oe_each {α : Type} {E : List Nat} (l : List α) (f : α → State → State) (h : ∀ a ∈ l, ∀ s, OnlyEvents E s (f a s)) (s : State) :
    OnlyEvents E s (each l f s) := by
  unfold each
  induction l generalizing s with
  | nil => exact oe_refl E s
  | cons a r ih =>
    exact oe_trans (h a (List.mem_cons_self ..) s) (ih (fun b hb => h b (List.mem_cons_of_mem _ hb)) _)

/-! Registers and memory -/

theorem oe_wr (s : State) (a v : Nat) (ha : sideReg a = true) : OnlyEvents [] s (s.wr a v) where
  rd b hb := rd_wr_other s v (fun h => by rw [h, ha] at hb; cases hb)
  byte _ _ := ⟨rfl, rfl, rfl⟩
  stat _ h := h
  only _ h := Or.inl h
  queue := ⟨[], by simp [State.wr], by simp⟩
  evt := rfl
  requests := ⟨[], [], by simp [State.wr]⟩
  obs := rfl
  rest := rfl

theorem oe_fset (s : State) (p : Nat) (f : Fld) (x : Nat) (ha : sideReg (ra p f.off) = true) : OnlyEvents [] s (s.fset p f x) := oe_wr s _ _ ha

theorem oe_fsat (s : State) (p : Nat) (f : Fld) (x : Nat) (ha : sideReg (ra p f.off) = true) : OnlyEvents [] s (s.fsat p f x) := oe_wr s _ _ ha

theorem eccBase_block (a : Nat) : eccBase a / 65536 = a / 65536 := by
  unfold eccBase
  have hk : 0 < eccBytes (regionOf (a / 65536)) := by unfold eccBytes; split <;> (try split) <;> omega
  generalize eccBytes (regionOf (a / 65536)) = k at hk
  have h2 : a % 65536 / k * k ≤ a % 65536 := Nat.div_mul_le_self _ _
  have h3 : a % 65536 < 65536 := Nat.mod_lt _ (by decide)
  show (a / 65536 * 65536 + a % 65536 / k * k) / 65536 = a / 65536
  omega

theorem oe_putByte (s : State) (a : Nat) (b : Byte) (e : BitVec 5) (ha : ctrBlock a = true) : OnlyEvents [] s (s.putByte a b e) where
  rd _ _ := rfl
  byte c hc := by
    have hne : c ≠ a := fun h => by rw [h, ha] at hc; cases hc
    exact ⟨kget_kput_other _ _ _ _ hne, kget_kput_other _ _ _ _ hne, rfl⟩
  stat _ h := h
  only _ h := Or.inl h
  queue := ⟨[], by simp [State.putByte], by simp⟩
  evt := rfl
  requests := ⟨[], [], by simp [State.putByte]⟩
  obs := rfl
  rest := rfl

theorem oe_putBytes (bs : List Byte) (s : State) (a : Nat) (e : BitVec 5) (h : ∀ i < bs.length, ctrBlock (a + i) = true) :
    OnlyEvents [] s (s.putBytes a bs e) := by
  induction bs generalizing s a with
  | nil => exact oe_refl _ s
  | cons b r ih =>
    refine oe_trans (oe_putByte s a b e (h 0 (by simp))) (ih _ _ (fun i hi => ?_))
    have := h (i + 1) (by simpa using hi)
    rwa [show a + (i + 1) = a + 1 + i by omega] at this

theorem sideReg_mem (o : Nat) (h : 0x04C ≤ o ∧ o < 0x094) : sideReg (ra 0x00B o) = true := by
  have h1 : (0x00B * 1024 + o) / 1024 = 0x00B := by omega
  have h2 : (0x00B * 1024 + o) % 1024 = o := by omega
  simp only [sideReg, ra, h1, h2, h.1, h.2, decide_true, BEq.rfl, Bool.and_self, Bool.or_true, Bool.true_or]

theorem oe_clearLive (m w : Nat) (s : State) : OnlyEvents [] s (clearLive m w s) := by
  refine oe_each _ _ (fun i hi t => ?_) s
  have : i < 8 := List.mem_range.mp hi
  dsimp only
  split
  · exact oe_wr t _ _ (sideReg_mem _ (by omega))
  · exact oe_refl _ t

theorem oe_wflag (s : State) (a : Nat) (d v : Bool) (h : ctrBlock a = true) : OnlyEvents [] s { s with wflag := kput d s.wflag a v } where
  rd _ _ := rfl
  byte c hc := by
    refine ⟨rfl, rfl, kget_kput_other _ _ _ _ (fun he => ?_)⟩
    simp only [ctrBlock, ← he, eccBase_block] at h
    simp only [ctrBlock] at hc
    rw [h] at hc; cases hc
  stat _ h := h
  only _ h := Or.inl h
  queue := ⟨[], by simp, by simp⟩
  evt := rfl
  requests := ⟨[], [], by simp⟩
  obs := rfl
  rest := rfl

theorem ctrBlock_iff (a : Nat) : ctrBlock a = true ↔ 128 ≤ a / 65536 ∧ a / 65536 < 152 := by simp [ctrBlock]

theorem oe_flipSpent (r : Nat) (s : State) : OnlyEvents [] s (flipSpent r s) := by
  unfold flipSpent
  split
  · exact oe_wr _ _ _ (sideReg_mem 0x068 (by decide))
  · exact oe_refl _ s

theorem oe_store (a : Nat) (bs : List Byte) (e : BitVec 5) (s : State) (h : ∀ i < bs.length, ctrBlock (a + i) = true) : OnlyEvents [] s (store a bs e s) := by
  unfold store
  exact oe_trans (oe_putBytes _ _ _ _ (by simpa using h)) (oe_flipSpent _ _)

/-- A write of one counter's word. -/
theorem oe_ctrWord (i : Nat) (bs : List Byte) (s : State) (hl : bs.length = 8) (hi : i < 0x30000) : OnlyEvents [] s (memWrite (ctrAddr i) bs s) := by
  have hm : ctrAddr i / 65536 = 128 + i / 8192 := by unfold ctrAddr; omega
  have ho : ctrAddr i % 65536 = 8 * (i % 8192) := by unfold ctrAddr; omega
  have hr : regionOf (128 + i / 8192) = 1 := by unfold regionOf; rw [if_neg (by omega), if_pos (by omega)]
  have hb : ∀ j < 8, ctrBlock (ctrAddr i + j) = true := fun j hj => by rw [ctrBlock_iff]; unfold ctrAddr; omega
  unfold memWrite
  simp only [hm, ho, hr, hl]
  have e8 : eccBytes 1 = 8 := by decide
  simp only [e8]
  refine oe_trans (oe_store _ _ _ _ (fun j hj => hb j (by simpa [hl] using hj))) (oe_each _ _ (fun w hw t => ?_) _)
  simp only [List.mem_map, List.mem_range] at hw
  obtain ⟨j, hj, rfl⟩ := hw
  refine oe_trans (oe_wflag t _ _ _ ?_) (oe_clearLive _ _ _)
  rw [ctrBlock_iff]; omega

theorem bytesLE_length (k v : Nat) : (bytesLE k v).length = k := by
  induction k generalizing v with
  | zero => rfl
  | succ k ih => simp [bytesLE, ih]

theorem oe_ctrPut (i v : Nat) (s : State) (hi : i < 0x30000) : OnlyEvents [] s (ctrPut i v s) := oe_ctrWord i _ s (bytesLE_length _ _) hi

theorem oe_obs (s : State) (a b c : List Nat) : OnlyEvents [] s { s with obs := { s.obs with invalid := a, restarted := b, satSeen := c } } where
  rd _ _ := rfl
  byte _ _ := ⟨rfl, rfl, rfl⟩
  stat _ h := h
  only _ h := Or.inl h
  queue := ⟨[], by simp, by simp⟩
  evt := rfl
  requests := ⟨[], [], by simp⟩
  obs := rfl
  rest := rfl

theorem oe_ctrAdd (i n : Nat) (s : State) (hi : i < 0x30000) : OnlyEvents [] s (ctrAdd i n s) := by
  unfold ctrAdd
  split
  · exact oe_refl _ s
  · split
    · exact oe_trans (oe_obs s _ _ s.obs.satSeen) (oe_ctrPut _ _ _ hi)
    · exact oe_ctrPut _ _ _ hi

/-! Occurrences -/

theorem sideReg_count (p : Nat) : sideReg (ra p evtCount.off) = true := by
  simp only [sideReg, ra, evtCount, Bool.or_eq_true, beq_iff_eq]
  omega

theorem stat_or (v : BitVec 512) (e k : Nat) : (v ||| BitVec.ofNat 512 (2 ^ e)).getLsbD k = (v.getLsbD k || (decide (k < 512) && decide (e = k))) := by
  rw [BitVec.getLsbD_or, BitVec.getLsbD_ofNat, Nat.testBit_two_pow]

theorem oe_occ (e : Nat) (s : State) (q : List EvReq) (n l : Nat) (hq : ∃ k, q = s.evt.queue ++ k ∧ ∀ r ∈ k, r.ev = e) :
    OnlyEvents [e] s { s with evt := { s.evt with stat := s.evt.stat ||| BitVec.ofNat 512 (2 ^ e), occ := n, queue := q, lossSince := l } } where
  rd _ _ := rfl
  byte _ _ := ⟨rfl, rfl, rfl⟩
  stat k h := by show (s.evt.stat ||| _).getLsbD k = true; rw [stat_or, h]; rfl
  only k h := by
    have h' : (s.evt.stat ||| BitVec.ofNat 512 (2 ^ e)).getLsbD k = true := h
    rw [stat_or, Bool.or_eq_true, Bool.and_eq_true] at h'
    refine h'.imp id (fun x => Or.inl ?_)
    have := of_decide_eq_true x.2
    simp [this]
  queue := by
    obtain ⟨k, h1, h2⟩ := hq
    exact ⟨k, h1, fun r hr => Or.inl (by simp [h2 r hr])⟩
  evt := rfl
  requests := ⟨[], [], by simp⟩
  obs := rfl
  rest := rfl

theorem oe_countEvent (e : Nat) (s : State) : OnlyEvents [] s (countEvent e s) := by
  unfold countEvent
  split
  · exact oe_fsat _ _ _ _ (sideReg_count _)
  · exact oe_refl _ s

/-- An addition to a counter does nothing but occurrences. -/
abbrev Adds (add : Nat → Nat → State → State) : Prop := ∀ i n s, i < 0x30000 → OnlyEvents [] s (add i n s)

theorem adds_ctrAdd : Adds ctrAdd := fun i n s hi => oe_ctrAdd i n s hi

theorem oe_intake {add : Nat → Nat → State → State} (ha : Adds add) (e d : Nat) (c : List Nat) (s : State) : OnlyEvents [e] s (intake add e d c s) := by
  unfold intake
  dsimp only
  split
  · exact oe_occ e s _ (s.evt.occ + 1) s.evt.lossSince ⟨[{ ev := e, detail := d % 128, id := s.evt.occ, after := c ++ pressesOf e s }], rfl, by simp⟩
  · refine oe_trans (oe_occ e s s.evt.queue (s.evt.occ + 1) (s.evt.lossSince + 1) ⟨[], by simp, by simp⟩) (oe_mono (E := []) ?_ (by simp))
    exact oe_trans (oe_fsat _ _ _ _ (by decide)) (ha _ _ _ (by decide))

theorem oe_raise0 {add : Nat → Nat → State → State} (ha : Adds add) (e d : Nat) (c : List Nat) (s : State) : OnlyEvents [e] s (raise0 add e d c s) := by
  unfold raise0
  split
  · exact oe_refl _ s
  · exact oe_trans (oe_mono (oe_countEvent e s) (by simp)) (oe_intake ha e d c _)

theorem oe_of_side {E : List Nat} {s t : State} (h : OnlyEvents E s t) (hs : ∀ e ∈ E, e ∈ sideEvents) : OnlyEvents [] s t :=
  oe_mono h (fun e he => Or.inr (hs e he))

theorem oe_seq (s : State) (l : List SeqReq) (m : List Nat) : OnlyEvents [] s { s with seq := { s.seq with queue := s.seq.queue ++ l, fired := s.seq.fired ++ m } } where
  rd _ _ := rfl
  byte _ _ := ⟨rfl, rfl, rfl⟩
  stat _ h := h
  only _ h := Or.inl h
  queue := ⟨[], by simp, by simp⟩
  evt := rfl
  requests := ⟨l, m, rfl⟩
  obs := rfl
  rest := rfl

theorem oe_fired (s : State) (m : List Nat) : OnlyEvents [] s { s with seq := { s.seq with fired := s.seq.fired ++ m } } := by
  have h := oe_seq s [] m
  rwa [List.append_nil] at h

theorem oe_requests (s : State) (l : List SeqReq) : OnlyEvents [] s { s with seq := { s.seq with queue := s.seq.queue ++ l } } := by
  have h := oe_seq s l []
  rwa [List.append_nil] at h

theorem oe_raiseNext (e d : Nat) (c : List Nat) (s : State) (he : e ∈ sideEvents) : OnlyEvents [] s (raiseNext e d c s) := by
  unfold raiseNext
  refine oe_trans (oe_of_side (oe_raise0 adds_ctrAdd e d c s) (fun x hx => ?_)) (oe_fired _ _)
  rwa [List.mem_singleton.mp hx]

theorem oe_addCtr0 (i n : Nat) (s : State) (hi : i < 0x30000) : OnlyEvents [] s (addCtr0 i n s) := by
  unfold addCtr0
  dsimp only
  split
  · exact oe_trans (oe_ctrAdd i n s hi) (oe_trans (oe_obs _ _ _ _) (oe_raiseNext _ _ _ _ (by decide)))
  · exact oe_ctrAdd i n s hi

theorem oe_faultInfo (a b c d : Nat) (s : State) : OnlyEvents [] s (faultInfo a b c d s) := oe_wr _ _ _ (by decide)

theorem oe_fireWith {add : Nat → Nat → State → State} (ha : Adds add) (b : Nat) (hb : b < 64) (s : State) : OnlyEvents [] s (fireWith add b s) := by
  unfold fireWith
  dsimp only
  refine oe_trans (ha (0x80 + 2 * b) 1 s (by omega)) ?_
  split
  · exact oe_trans (oe_faultInfo _ _ _ _ _) (oe_raiseNext _ _ _ _ (by decide))
  · split
    · exact ha (0x81 + 2 * b) 1 _ (by omega)
    · exact oe_requests _ _

/-- The bindings of a trigger are numbered below 64. -/
theorem boundWith_lt (s : State) (src : Nat) (ok : Nat → Bool) : ∀ b ∈ boundWith s src ok, b < 64 := by
  intro b hb
  simp only [boundWith, List.mem_map, List.mem_filter, Bool.and_eq_true, decide_eq_true_eq] at hb
  obtain ⟨e, ⟨_, ⟨⟨⟨⟨⟨_, h1⟩, h2⟩, _⟩, _⟩, _⟩, _⟩, rfl⟩ := hb
  simp only [bindAddr, ra] at h1 h2 ⊢
  omega

theorem oe_raiseWith {add : Nat → Nat → State → State} (ha : Adds add) (e d : Nat) (c : List Nat) (s : State) : OnlyEvents [e] s (raiseWith add e d c s) := by
  unfold raiseWith
  refine oe_trans (oe_raise0 ha e d c s) (oe_mono (E := []) (oe_each _ _ (fun b hb t => ?_) _) (by simp))
  exact oe_fireWith ha b (boundWith_lt _ _ _ b hb) t

theorem oe_raiseWith_side {add : Nat → Nat → State → State} (ha : Adds add) (e d : Nat) (c : List Nat) (s : State) (h : e ∈ sideEvents) :
    OnlyEvents [] s (raiseWith add e d c s) :=
  oe_of_side (oe_raiseWith ha e d c s) (fun x hx => by rwa [List.mem_singleton.mp hx])

/-! Counters -/

theorem oe_countCe {add : Nat → Nat → State → State} (ha : Adds add) (r : Nat) (s : State) (hr : r < 7) : OnlyEvents [] s (countCe add r s) := by
  unfold countCe onlyIf
  dsimp only
  have h := oe_trans (oe_fsat s 0x00B ⟨0x04C + 4 * r, 0, 8⟩ 1 (sideReg_mem _ (by show 0x04C ≤ 0x04C + 4 * r ∧ 0x04C + 4 * r < 0x094; omega))) (ha (0x10 + 4 * r) 1 _ (by omega))
  split
  · exact oe_trans h (oe_raiseWith_side ha 65 r _ _ (by decide))
  · exact h

theorem oe_poison (m w : Nat) (s : State) (hm : 128 ≤ m ∧ m < 152) (hw : w < 8192) : OnlyEvents [] s (poison m w s) := by
  have hr : regionOf m = 1 := by unfold regionOf; rw [if_neg (by omega), if_pos (by omega)]
  unfold poison
  simp only [hr, show eccBytes 1 = 8 by decide]
  refine oe_store _ _ _ _ (fun i hi => ?_)
  simp only [List.length_map, List.length_range] at hi
  rw [ctrBlock_iff]; omega

theorem oe_recover {add : Nat → Nat → State → State} (ha : Adds add) (m w occ : Nat) (s : State) (hm : 128 ≤ m ∧ m < 152) :
    OnlyEvents [] s (recover add m w occ s) := by
  have hr : regionOf m = 1 := by unfold regionOf; rw [if_neg (by omega), if_pos (by omega)]
  unfold recover
  simp only [hr]
  split
  · exact oe_trans (oe_obs s _ _ s.obs.satSeen) (oe_raiseWith_side ha 480 _ _ _ (by decide))
  · exact oe_refl _ s

theorem oe_ueRecord (src : Reader) (m w : Nat) (s : State) : OnlyEvents [] s (ueRecord src m w s).2 := by
  unfold ueRecord
  split
  · rename_i i hi
    have hi8 : i < 8 := List.mem_range.mp (List.mem_of_find?_eq_some hi)
    exact oe_trans (oe_wr _ _ _ (sideReg_mem _ (by omega))) (oe_fsat _ _ _ _ (by decide))
  · exact oe_fset _ _ _ _ (by decide)

theorem oe_ueFound {add : Nat → Nat → State → State} (ha : Adds add) (src : Reader) (m w : Nat) (s : State) (hm : 128 ≤ m ∧ m < 152) (hw : w < 8192) :
    OnlyEvents [] s (ueFound add src m w s) := by
  have hr : regionOf m = 1 := by unfold regionOf; rw [if_neg (by omega), if_pos (by omega)]
  unfold ueFound
  simp only [hr]
  refine oe_trans (oe_poison m w s hm hw) ?_
  split
  · exact ha (0x12 + 4 * 1) 1 _ (by decide)
  · exact oe_trans (oe_trans (oe_trans (oe_ueRecord src m w _) (oe_raiseWith_side ha 64 _ _ _ (by decide))) (oe_recover ha m w _ _ hm)) (ha (0x11 + 4 * 1) 1 _ (by decide))

theorem oe_ceSeen (s : State) (x : KMap Bool) : OnlyEvents [] s { s with ceSeen := x } where
  rd _ _ := rfl
  byte _ _ := ⟨rfl, rfl, rfl⟩
  stat _ h := h
  only _ h := Or.inl h
  queue := ⟨[], by simp, by simp⟩
  evt := rfl
  requests := ⟨[], [], by simp⟩
  obs := rfl
  rest := rfl

theorem regionOf_lt (m : Nat) : regionOf m < 7 := by
  unfold regionOf
  repeat' split
  all_goals omega

theorem oe_ceFound {add : Nat → Nat → State → State} (ha : Adds add) (a k : Nat) (s : State) : OnlyEvents [] s (ceFound add a k s) := by
  refine oe_each _ _ (fun i _ t => ?_) s
  split
  · exact oe_trans (oe_ceSeen t _) (oe_countCe ha _ _ (regionOf_lt _))
  · exact oe_refl _ t

theorem oe_scrubNext (s : State) (x : List (Nat × Nat)) : OnlyEvents [] s { s with scrubNext := x } where
  rd _ _ := rfl
  byte _ _ := ⟨rfl, rfl, rfl⟩
  stat _ h := h
  only _ h := Or.inl h
  queue := ⟨[], by simp, by simp⟩
  evt := rfl
  requests := ⟨[], [], by simp⟩
  obs := rfl
  rest := rfl

theorem oe_visitNext (src : Reader) (a : Nat) (s : State) : OnlyEvents [] s (visitNext src a s) := by
  unfold visitNext
  dsimp only
  split
  · exact oe_refl _ s
  · exact oe_scrubNext s _

/-- A read of a counter's word. -/
theorem oe_readCtr {add : Nat → Nat → State → State} (ha : Adds add) (src : Reader) (i : Nat) (s : State) (hi : i < 0x30000) :
    OnlyEvents [] s (readWith add src (128 + i / 8192) (i % 8192) s).2.2 := by
  unfold readWith
  dsimp only
  split
  · exact oe_refl _ s
  · split
    · exact oe_ueFound ha src _ _ s (by omega) (by omega)
    · show OnlyEvents [] s (onlyIf _ _ _)
      unfold onlyIf
      split
      · exact oe_trans (oe_ceFound ha _ _ s) (oe_visitNext _ _ _)
      · exact oe_ceFound ha _ _ s

theorem adds_addDeep (k : Nat) : Adds (addDeep k) := by
  induction k with
  | zero => exact fun i n s hi => oe_addCtr0 i n s hi
  | succ k ih =>
    intro i n s hi
    unfold addDeep
    split
    · exact oe_refl _ s
    · split
      · exact oe_addCtr0 i n s hi
      · exact oe_trans (oe_readCtr ih _ i s hi) (oe_addCtr0 i n _ hi)

theorem adds_addCtr : Adds addCtr := adds_addDeep 6

/-- An addition to a counter. -/
theorem oe_addCtr (i n : Nat) (s : State) (hi : i < 0x30000) : OnlyEvents [] s (addCtr i n s) := adds_addCtr i n s hi

/-! Events and triggers -/

/-- An occurrence, with the bindings it fires. -/
theorem oe_raiseAfter (e d : Nat) (c : List Nat) (s : State) : OnlyEvents [e] s (raiseAfter e d c s) := oe_raiseWith adds_addCtr e d c s

theorem oe_raiseC (e d : Nat) (c : Option Nat) (s : State) : OnlyEvents [e] s (raiseC e d c s) := oe_raiseAfter e d _ s

theorem oe_raise (e d : Nat) (s : State) : OnlyEvents [e] s (raise e d s) := oe_raiseAfter e d [] s

/-- The firing of the bindings of a trigger. -/
theorem oe_fire (src num : Nat) (s : State) : OnlyEvents [] s (fire src num s) :=
  oe_each _ _ (fun b hb t => oe_fireWith adds_addCtr b (boundWith_lt _ _ _ b hb) t) s

theorem oe_raise_side (e d : Nat) (s : State) (h : e ∈ sideEvents) : OnlyEvents [] s (raise e d s) := oe_raiseWith_side adds_addCtr e d [] s h

/-! What `OnlyEvents` gives for fields -/

theorem oe_fget {E : List Nat} {s t : State} (h : OnlyEvents E s t) (p : Nat) (f : Fld) (hr : sideReg (ra p f.off) = false) : t.fget p f = s.fget p f := by
  unfold State.fget
  rw [h.rd _ hr]

theorem oe_flag {E : List Nat} {s t : State} (h : OnlyEvents E s t) (p : Nat) (f : Fld) (hr : sideReg (ra p f.off) = false) : t.flag p f = s.flag p f := by
  unfold State.flag
  rw [oe_fget h p f hr]

theorem oe_lanes {E : List Nat} {s t : State} (h : OnlyEvents E s t) : t.lanes = s.lanes := by rw [h.rest]

/-! Commands -/

/-- A command whose meaning is guarded, where the guard holds. -/
theorem makes_if {c : Instr} {s a d : State} {b : Prop} [Decidable b] {P : State → Prop} (he : exec c s = .next (if b then a else d)) (hb : b) (h : P a) :
    Makes c s P := ⟨a, by rw [he, if_pos hb], h⟩

/-- A command whose meaning is guarded, where the guard fails. -/
theorem makes_else {c : Instr} {s a d : State} {b : Prop} [Decidable b] {P : State → Prop} (he : exec c s = .next (if b then a else d)) (hb : ¬ b) (h : P d) :
    Makes c s P := ⟨d, by rw [he, if_neg hb], h⟩

theorem keeps_else {c : Instr} {s a : State} {b : Prop} [Decidable b] (he : exec c s = .next (if b then a else s)) (hb : ¬ b) : Keeps c s := by
  unfold Keeps
  rw [he, if_neg hb]

/-! Frames -/

theorem frame_refl (L E : List Nat) (s : State) : Frame L E s s := ⟨fun _ _ _ => rfl, fun _ _ => rfl, fun _ h => h, fun _ h => Or.inl h⟩

theorem frame_trans {L E : List Nat} {s t u : State} (h : Frame L E s t) (g : Frame L E t u) : Frame L E s u where
  rd a ha hs := (g.rd a ha hs).trans (h.rd a ha hs)
  byte a ha := (g.byte a ha).trans (h.byte a ha)
  stat e he := g.stat e (h.stat e he)
  only e he := (g.only e he).elim (h.only e) Or.inr

theorem frame_mono {L L' E E' : List Nat} {s t : State} (h : Frame L E s t) (hL : ∀ a ∈ L, a ∈ L') (hE : ∀ e ∈ E, e ∈ E') : Frame L' E' s t where
  rd a ha hs := h.rd a (fun x => ha (hL a x)) hs
  byte := h.byte
  stat := h.stat
  only e he := (h.only e he).imp id (fun x => x.imp (hE e) id)

theorem frame_of_oe {L E : List Nat} {s t : State} (h : OnlyEvents E s t) : Frame L E s t :=
  ⟨fun a _ hs => h.rd a hs, fun a ha => (h.byte a ha).1, h.stat, h.only⟩

/-- A state that has the same registers, memory and status has the whole frame. -/
theorem frame_of_eq {L E : List Nat} {s t : State} (hr : t.regs = s.regs) (hm : t.mem = s.mem) (he : t.evt.stat = s.evt.stat) : Frame L E s t where
  rd a _ _ := by simp only [State.rd, hr]
  byte a _ := by simp only [State.byte, hm]
  stat e h := by rw [he]; exact h
  only e h := Or.inl (by rw [← he]; exact h)

theorem frame_wr {L E : List Nat} (s : State) (a v : Nat) (ha : a ∈ L) : Frame L E s (s.wr a v) where
  rd _ hb _ := rd_wr_other s v (fun h => hb (h ▸ ha))
  byte _ _ := rfl
  stat _ h := h
  only _ h := Or.inl h

theorem frame_setLane {L E : List Nat} (s : State) (n : Lane) (f : LaneSt → LaneSt) : Frame L E s (s.setLane n f) := frame_of_eq rfl rfl rfl

theorem frame_setHost {L E : List Nat} (s : State) (h : Host16) (f : HostSt → HostSt) : Frame L E s (s.setHost h f) := frame_of_eq rfl rfl rfl

theorem frame_setEng {L E : List Nat} (s : State) (e : Eng) (f : EngSt → EngSt) : Frame L E s (s.setEng e f) := frame_of_eq rfl rfl rfl

theorem frame_setCap {L E : List Nat} (s : State) (k : Fin 4) (f : CapSt → CapSt) : Frame L E s (s.setCap k f) := frame_of_eq rfl rfl rfl

theorem frame_setCal {L E : List Nat} (s : State) (n : Lane) (f : CalSt → CalSt) : Frame L E s (s.setCal n f) := frame_of_eq rfl rfl rfl

theorem frame_setLas {L E : List Nat} (s : State) (n : Lane) (f : LasSt → LasSt) : Frame L E s (s.setLas n f) := frame_of_eq rfl rfl rfl

theorem frame_setHk {L E : List Nat} (s : State) (b : Fin 2) (f : HkSt → HkSt) : Frame L E s (s.setHk b f) := frame_of_eq rfl rfl rfl

theorem frame_setWmk {L E : List Nat} (s : State) (n : Lane) (f : WmkSt → WmkSt) : Frame L E s (s.setWmk n f) := frame_of_eq rfl rfl rfl

theorem frame_fset {L E : List Nat} (s : State) (p : Nat) (f : Fld) (x : Nat) (ha : ra p f.off ∈ L) : Frame L E s (s.fset p f x) := frame_wr s _ _ ha

theorem frame_setFlag {L E : List Nat} (s : State) (p : Nat) (f : Fld) (b : Bool) (ha : ra p f.off ∈ L) : Frame L E s (s.setFlag p f b) := frame_wr s _ _ ha

theorem frame_fget {L E : List Nat} {s t : State} (h : Frame L E s t) (p : Nat) (f : Fld) (hL : ra p f.off ∉ L) (hr : sideReg (ra p f.off) = false) : t.fget p f = s.fget p f := by
  unfold State.fget
  rw [h.rd _ hL hr]

theorem frame_each {α : Type} {L E : List Nat} (l : List α) (f : α → State → State) (h : ∀ a ∈ l, ∀ s, Frame L E s (f a s)) (s : State) :
    Frame L E s (each l f s) := by
  unfold each
  induction l generalizing s with
  | nil => exact frame_refl L E s
  | cons a r ih => exact frame_trans (h a (List.mem_cons_self ..) s) (ih (fun b hb => h b (List.mem_cons_of_mem _ hb)) _)

/-! The occurrence itself -/

theorem raised_intake (e d : Nat) (c : List Nat) (s : State) (he : e < 512) : Raised e d s (intake addCtr e d c s) := by
  unfold intake
  dsimp only
  split
  · refine ⟨?_, fun _ => ⟨_, List.mem_append_right _ (List.mem_singleton_self _), rfl, rfl⟩⟩
    show (s.evt.stat ||| BitVec.ofNat 512 (2 ^ e)).getLsbD e = true
    rw [stat_or]; simp [he]
  · rename_i hn
    refine ⟨?_, fun h => absurd h hn⟩
    refine (oe_trans (oe_fsat _ _ _ _ (by decide)) (oe_addCtr 1 1 _ (by decide))).stat e ?_
    show (s.evt.stat ||| BitVec.ofNat 512 (2 ^ e)).getLsbD e = true
    rw [stat_or]; simp [he]

/-- What has occurred has still occurred after whatever else occurs. -/
theorem raised_after {E : List Nat} {e d : Nat} {s t u : State} (h : Raised e d s t) (g : OnlyEvents E t u) : Raised e d s u := by
  refine ⟨g.stat e h.1, fun hl => ?_⟩
  obtain ⟨r, hr, h1⟩ := h.2 hl
  obtain ⟨l, g1, _⟩ := g.queue
  exact ⟨r, by rw [g1]; exact List.mem_append_left _ hr, h1⟩

/-- An occurrence after occurrences of other events only. -/
theorem raised_before {E : List Nat} {e d : Nat} {s t u : State} (g : OnlyEvents E s t) (h : Raised e d t u) (he : e ∉ E ∧ e ∉ sideEvents) :
    Raised e d s u := by
  refine ⟨h.1, fun hl => h.2 ?_⟩
  obtain ⟨l, g1, g2⟩ := g.queue
  have : l.filter (fun r => r.ev == e) = [] := by
    rw [List.filter_eq_nil_iff]
    intro r hr hre
    rw [beq_iff_eq] at hre
    rcases g2 r hr with h' | h' <;> rw [hre] at h'
    · exact he.1 h'
    · exact he.2 h'
  rw [g1, List.filter_append, this, List.append_nil]
  exact hl

theorem raised_of_eq {e d : Nat} {s s' t : State} (h : Raised e d s' t) (hq : s'.evt.queue = s.evt.queue) : Raised e d s t :=
  ⟨h.1, fun hl => h.2 (by rw [hq]; exact hl)⟩

theorem raised_fset {e d : Nat} {s t : State} {p : Nat} {f : Fld} {x : Nat} (h : Raised e d (s.fset p f x) t) : Raised e d s t := raised_of_eq h rfl

theorem raised_setFlag {e d : Nat} {s t : State} {p : Nat} {f : Fld} {b : Bool} (h : Raised e d (s.setFlag p f b) t) : Raised e d s t := raised_of_eq h rfl

theorem raised_wr {e d : Nat} {s t : State} {a v : Nat} (h : Raised e d (s.wr a v) t) : Raised e d s t := raised_of_eq h rfl

theorem raised_setLane {e d : Nat} {s t : State} {n : Lane} {f : LaneSt → LaneSt} (h : Raised e d (s.setLane n f) t) : Raised e d s t := raised_of_eq h rfl

theorem raised_setHost {e d : Nat} {s t : State} {h : Host16} {f : HostSt → HostSt} (h : Raised e d (s.setHost h f) t) : Raised e d s t := raised_of_eq h rfl

theorem raised_setEng {e d : Nat} {s t : State} {k : Eng} {f : EngSt → EngSt} (h : Raised e d (s.setEng k f) t) : Raised e d s t := raised_of_eq h rfl

theorem raised_setCap {e d : Nat} {s t : State} {k : Fin 4} {f : CapSt → CapSt} (h : Raised e d (s.setCap k f) t) : Raised e d s t := raised_of_eq h rfl

theorem raised_setCal {e d : Nat} {s t : State} {n : Lane} {f : CalSt → CalSt} (h : Raised e d (s.setCal n f) t) : Raised e d s t := raised_of_eq h rfl

theorem raised_setLas {e d : Nat} {s t : State} {n : Lane} {f : LasSt → LasSt} (h : Raised e d (s.setLas n f) t) : Raised e d s t := raised_of_eq h rfl

theorem raised_setHk {e d : Nat} {s t : State} {b : Fin 2} {f : HkSt → HkSt} (h : Raised e d (s.setHk b f) t) : Raised e d s t := raised_of_eq h rfl

theorem raised_setWmk {e d : Nat} {s t : State} {n : Lane} {f : WmkSt → WmkSt} (h : Raised e d (s.setWmk n f) t) : Raised e d s t := raised_of_eq h rfl

theorem defined_word : defined.toNat = 0x1ffff301ffffffffffffffffffffffffffffffffffffffffffffffffffffffffffffffffffffffffffffffff070003001f007f0000007f000f01ff077f001f := by decide +kernel

theorem defined_word_bits : definedEvents.all (fun e => (0x1ffff301ffffffffffffffffffffffffffffffffffffffffffffffffffffffffffffffffffffffffffffffff070003001f007f0000007f000f01ff077f001f : Nat).testBit e) = true := by decide +kernel

/-- Every event of R384's table has its bit in the mask after reset. -/
theorem defined_of_mem (e : Nat) (h : e ∈ definedEvents) : defined.getLsbD e = true := by
  have := List.all_eq_true.mp defined_word_bits e h
  rwa [← defined_word] at this

theorem defined_lt (e : Nat) (h : defined.getLsbD e = true) : e < 512 := by
  by_contra hn
  rw [BitVec.getLsbD_of_ge _ _ (by omega)] at h
  cases h

theorem countEvent_queue (e : Nat) (s : State) : (countEvent e s).evt.queue = s.evt.queue := by
  unfold countEvent
  split <;> rfl

/-- An occurrence of a defined event sets its status bit and asks for a log entry. -/
theorem raised_raiseAfter (e d : Nat) (c : List Nat) (s : State) (h : defined.getLsbD e = true) : Raised e d s (raiseAfter e d c s) := by
  unfold raiseAfter raiseWith
  refine raised_after (E := []) (t := raise0 addCtr e d c s) ?_ (oe_each _ _ (fun b hb t => oe_fireWith adds_addCtr b (boundWith_lt _ _ _ b hb) t) _)
  unfold raise0
  rw [if_neg (by rw [h]; decide)]
  exact raised_of_eq (raised_intake e d c _ (defined_lt e h)) (countEvent_queue e s)

theorem raised_raiseC (e d : Nat) (c : Option Nat) (s : State) (h : defined.getLsbD e = true) : Raised e d s (raiseC e d c s) := raised_raiseAfter e d _ s h

theorem raised_raise (e d : Nat) (s : State) (h : defined.getLsbD e = true) : Raised e d s (raise e d s) := raised_raiseAfter e d [] s h

end Sys2Proof.Laws
end

