-- ==== Sys2Proof/Laws/Wmk.lean ====
section
/-! SUPPORT. Laws of the watermark receiver: the correlator's register holds the last 32 symbols, whatever the decoder does (R281). -/

namespace Sys2Proof.Machine

theorem rxTail_reg (b : Bool) (x : WmkRx) : (rxTail b x).1.reg = x.reg := by
  unfold rxTail; split
  · rfl
  · split <;> rfl

theorem rxSym_reg (seen b : Bool) (x : WmkRx) : (rxSym seen b x).1.reg = x.reg := by
  unfold rxSym; split
  · split <;> rfl
  · split
    · split
      · split <;> rfl
      · rfl
    · split <;> rfl
  · split <;> rfl

/-- The correlator's register after symbols depends on no decision of the decoder. -/
theorem rxScan_reg (tol : Nat) (l : List Bool) (x : WmkRx) :
    (rxScan tol l x).1.reg = l.foldl (fun r b => (2 * r + bit b) % 2 ^ 32) x.reg := by
  induction l generalizing x with
  | nil => rfl
  | cons b r ih => simp only [rxScan, ih, rxSym_reg, rxTail_reg, List.foldl_cons]

end Sys2Proof.Machine
end

