-- ==== Sys2Proof/Tests/Slice0.lean ====
section
/-! SUPPORT. Tests: ill-formed commands that WellFormed refuses; a few commands against values worked out by hand from the rules; and for every statement with premises a theorem `reach_<statement>` that shows, clause by clause and in the order of the statement, a state and operands that meet them together, at the ends of the ranges where the clause has one. -/

open Sys2Proof Sys2Proof.Machine

namespace Sys2Proof.Tests

set_option Elab.async false

/-! States to start from -/

/-- A device that has booted: every domain has power, every line lane runs and carries two host lanes at 400 Gb/s, and no line or host lane has a signal. -/
def up : State :=
  { State.reset with
    regs := (List.range 8).map (fun n => (ra 0x008 (0x040 + 4 * n), BitVec.ofNat 32 (0x410 + 0x22 * n)))
    pwr := { State.reset.pwr with por := false, hkOn := true, coreOn := true, laneOn := 0xFF, hostOn := 0xF }
    boot := { State.reset.boot with ready := true }
    mgmt := { State.reset.mgmt with released := true, allowed := true }
    lanes := Vector.replicate 8 { run := true } }

/-- The same with both references, a signal and lock on every lane, and every framer in SYNC. -/
def live : State :=
  { up with
    regs := [(ra 0x007 0x040, 3)] ++ up.regs ++ (List.range 8).map (fun n => (ra (lrxP n) 0x05C, 0x32))
      ++ (List.range 8).map (fun n => (ra (lfmP n) 0x048, 2)) ++ (List.range 16).map (fun h => (ra (hrxP h) 0x054, 0x32))
      ++ (List.range 16).map (fun h => (ra (htxP h) 0x04C, 0xE0)) }

/-- `live` with one lane changed. -/
def lane (n : Lane) (f : LaneSt → LaneSt) : State := live.setLane n f

/-- The first and the last line lane. -/
def lanes : List Lane := [0, 7]

/-! Ill-formed commands: one for each check of WellFormed, which refuses it -/

/-- A data path of lane 7. -/
def path7 : DataPath := { lane := 7, map := 0x7FF, lfm := 0, hrx := [(14, 0), (15, 0)], htx := [(14, 0), (15, 0)], explicit := true }

theorem test_wf_refuses_addresses :
    (Instr.spiWrite 0x400000 []).wf = false ∧ (Instr.spiWrite 0x3FFFFD []).wf = false ∧ (Instr.spiWrite 0x3FFFFC []).wf = true
    ∧ (Instr.spiRead 0x400000 []).wf = false ∧ (Instr.spiRead 2 []).wf = false ∧ (Instr.spiRead 0x3FFFFC []).wf = true
    ∧ (Instr.registerWrite .spi 0x3FFFFE 0).wf = false ∧ (Instr.registerWrite .spi 0x3FFFFC 0).wf = true
    ∧ (Instr.evtStatClear 0x0C81 0 []).wf = false ∧ (Instr.evtStatClear 0x0C80 0 []).wf = true := by decide

theorem test_wf_refuses_paths :
    (Instr.cmisApplyDpinit [path7]).wf = true ∧ (Instr.cmisApplyDpinit [path7, path7]).wf = false
    ∧ (Instr.cmisApplyDpinit [{ path7 with map := 0x800 }]).wf = false ∧ (Instr.cmisApplyDpinit [{ path7 with hrx := [(3, 0), (3, 1)] }]).wf = false
    ∧ (Instr.cmisApplyDpinit [{ path7 with htx := [(3, 0), (3, 1)] }]).wf = false
    ∧ (Instr.cmisApplyImmediate [path7]).wf = true ∧ (Instr.cmisApplyImmediate [path7, path7]).wf = false
    ∧ (Instr.cmisApplyImmediate [{ path7 with map := 0x800 }]).wf = false := by decide

theorem test_wf_refuses_overlays :
    (Instr.rxFrame 7 [1, 2] [1] 0).wf = false ∧ (Instr.rxFrame 7 [1, 2] [] 0).wf = true ∧ (Instr.rxFrame 7 [1, 2] [0, 0] 0).wf = true
    ∧ (Instr.huntCommaFound 7 0 [1, 2] [1]).wf = false ∧ (Instr.huntCommaFound 7 0 [1, 2] [0, 0]).wf = true := by decide

/-- 65 values. -/
def each65 : List Nat := List.replicate 65 0

theorem test_wf_refuses_slices :
    (Instr.foregroundCalDone 7 each65 [64] each65 [64] 0).wf = true
    ∧ (Instr.foregroundCalDone 7 (each65.drop 1) [] each65 [] 0).wf = false ∧ (Instr.foregroundCalDone 7 each65 [] (each65.drop 1) [] 0).wf = false
    ∧ (Instr.foregroundCalDone 7 each65 [65] each65 [] 0).wf = false ∧ (Instr.foregroundCalDone 7 each65 [] each65 [65] 0).wf = false
    ∧ (Instr.istDone (.lane [64] each65 [64] 0)).wf = true ∧ (Instr.istDone (.lane [] (0 :: each65) [] 0)).wf = false
    ∧ (Instr.istDone (.lane [65] each65 [] 0)).wf = false ∧ (Instr.istDone (.lane [] each65 [65] 0)).wf = false := by decide +kernel

theorem test_wf_refuses_lengths :
    (Instr.paceCheck (List.replicate 7 (0, 0))).wf = false ∧ (Instr.confirmedSet (List.replicate 9 (0, 0)) 0).wf = false
    ∧ (Instr.scrubLine 6 [(256, 1)] false).wf = false ∧ (Instr.scrubLine 6 [(255, 1)] false).wf = true ∧ (Instr.wakeDone [(176 * 65536, 1)]).wf = false
    ∧ (Instr.mi2cDone 1 none [1, 2, 3, 4, 5]).wf = false ∧ (Instr.mi2cDone 1 none [1, 2, 3, 4]).wf = true
    ∧ (Instr.mi2cStuck 1 [1, 2, 3, 4, 5]).wf = false ∧ (Instr.mi2cStuck 1 []).wf = true
    ∧ (Instr.attestDone (List.replicate 63 0)).wf = false ∧ (Instr.attestDone (List.replicate 64 0)).wf = true := by decide +kernel

/-! The spec's own worked examples -/

/-- The command completes and its next state passes a check. -/
def ends (c : Instr) (s : State) (p : State → Bool) : Bool :=
  match exec c s with
  | .next t => p t
  | _ => false

/-- An event is raised with a DETAIL: its bit is set and its request waits. -/
def raised (e d : Nat) (t : State) : Bool := t.evt.stat.getLsbD e && t.evt.queue.any (fun r => r.ev == e && r.detail == d)

/-! Premises: references, buffers, latency, time -/

theorem reach_ReferencesAndRealignment :
    (live.flag 0x007 clkRefl = true ∧ live.flag 0x007 clkRefh = true)
    ∧ (up.flag 0x007 clkRefl = false ∧ up.flag 0x007 clkRefh = false)
    ∧ (∀ n ∈ lanes, live.lanes[n].run = true ∧ live.lanes[n].goodTx = false ∧ live.lanes[n].goodRx = false ∧ live.lanes[n].slewTx = 0
        ∧ live.lanes[n].slewRx = 0 ∧ live.sourceOk n false = true ∧ live.sourceOk n true = true)
    ∧ (∀ n ∈ lanes, let s := lane n (fun l => { l with holdTx := true, holdRx := true });
        s.lanes[n].holdTx = true ∧ s.lanes[n].holdRx = true ∧ s.sourceOk n false = true ∧ s.sourceOk n true = true)
    ∧ (∀ n ∈ lanes, let s := lane n (fun l => { l with slewTx := 1, slewRx := 1 });
        s.lanes[n].slewTx = 1 ∧ s.lanes[n].slewRx = 1)
    ∧ (∀ n ∈ lanes, let s := lane n (fun l => { l with slewTx := 2, slewRx := 2 });
        s.lanes[n].slewTx = 2 ∧ s.lanes[n].slewRx = 2 ∧ (s.hostsOf n).length = 2)
    ∧ live.lanes[(7 : Lane)].slewRx ≠ 1 ∧ live.lanes[(7 : Lane)].slewRx ≠ 2 :=
  by
    iterate 6 refine ⟨by decide +kernel, ?_⟩
    decide +kernel

theorem reach_BuffersRecentre :
    (∀ n ∈ lanes, ∀ k ∈ [1, 2], let s := (lane n (fun l => { l with elastic := k })).setFlag (lfmP n) lfmTiming true;
        s.lanes[n].run = true ∧ s.lanes[n].elastic ≠ 0 ∧ s.free n = true)
    ∧ (∀ n ∈ lanes, ∀ k ∈ [1, 2], let s := lane n (fun l => { l with elastic := k });
        s.lanes[n].run = true ∧ s.lanes[n].elastic ≠ 0 ∧ s.free n = false)
    ∧ (∀ n ∈ lanes, let s := lane n (fun l => { l with skewLeft := 1, skew := List.replicate 256 false });
        s.lanes[n].run = true ∧ s.lanes[n].skewLeft ≠ 0 ∧ mapEn (s.mapOf n) = true ∧ mapRate (s.mapOf n) = 0 ∧ 256 ≤ s.lanes[n].skew.length)
    ∧ (live.lanes[(7 : Lane)].elastic = 0 ∧ live.lanes[(7 : Lane)].skewLeft = 0) :=
  ⟨by decide +kernel, by decide +kernel, by decide +kernel, by decide +kernel⟩

theorem reach_Latency :
    (let s := (live.wr (ra 0x00D 0x040) 1).fset 0x00D ⟨0x044, 0, 5⟩ 7;
      s.flag 0x00D latEn = true ∧ s.lanes[(7 : Lane)].run = true ∧ mapEn (s.mapOf 7) = true ∧ latSelected 7 false false s = true)
    ∧ (live.wr (ra 0x00D 0x040) 0).flag 0x00D latEn = false
    ∧ (let s := { live.wr (ra 0x00D 0x040) 1 with time := { live.time with latWin := [5] } };
      s.flag 0x00D latEn = true ∧ 2 ^ s.fget 0x00D latWinF ≤ s.time.latWin.length ∧ s.time.latBad = false)
    ∧ (let s := { live.wr (ra 0x00D 0x040) 1 with time := { live.time with latWin := [5], latBad := true } };
      s.flag 0x00D latEn = true ∧ 2 ^ s.fget 0x00D latWinF ≤ s.time.latWin.length ∧ s.time.latBad = true)
    ∧ live.time.latWin.length < 2 ^ live.fget 0x00D latWinF :=
  by
    iterate 4 refine ⟨by decide +kernel, ?_⟩
    decide +kernel

theorem reach_TimeCounterAndPps :
    (let s := live.wr (ra 0x00D 0x060) 7;
      let c := s.rd (ra 0x00D 0x060);
      tb c 0 = true ∧ tb c 1 = true ∧ tb c 2 = true)
    ∧ tb ((live.wr (ra 0x00D 0x060) 0).rd (ra 0x00D 0x060)) 0 = false
    ∧ (live.setFlag 0x00D ppsOk true).flag 0x00D ppsOk = true
    ∧ live.flag 0x00D ppsOk = false :=
  ⟨by decide +kernel, by decide +kernel, by decide +kernel, by decide +kernel⟩

/-! Premises: line receivers and framers -/

theorem reach_LineSignalAndClock :
    (∀ n ∈ lanes, let s := lane n (fun l => { l with fig := { l.fig with below := 64 } });
        s.rxLive n = true ∧ s.flag (lrxP n) lrxLos = false ∧ 64 ≤ s.lanes[n].fig.below ∧ s.fget (lfmP n) lfmFstate = 2 ∧ s.stopped (lfmP n) = false)
    ∧ (∀ n ∈ lanes, let s := up.setLane n (fun l => { l with fig := { l.fig with above := 1024 } });
        s.rxLive n = true ∧ s.flag (lrxP n) lrxLos = true ∧ 1024 ≤ s.lanes[n].fig.above)
    ∧ live.flag (lrxP 7) lrxLos = false
    ∧ (∀ n ∈ lanes, up.rxLive n = true ∧ up.flag (lrxP n) lrxCdr = false)
    ∧ (∀ n ∈ lanes, let s := lane n (fun l => { l with goodRx := true });
        s.flag (lrxP n) lrxCdr = true ∧ s.lanes[n].run = true ∧ s.free n = false ∧ s.lanes[n].goodRx = true)
    ∧ up.flag (lrxP 7) lrxCdr = false
    ∧ (∀ n ∈ lanes, let s := live.fset (lfmP n) lfmFstate 0;
        s.rxLive n = true ∧ s.coding n = 0 ∧ s.fget (lfmP n) lfmFstate = 0 ∧ s.flag (lrxP n) lrxLos = false)
    ∧ live.fget (lfmP 7) lfmFstate ≠ 0 :=
  by
    iterate 7 refine ⟨by decide +kernel, ?_⟩
    decide +kernel

theorem reach_LineFrameSent :
    (∀ n ∈ lanes, live.txLive n = true ∧ mapEn (live.mapOf n) = true ∧ live.coding n = 0 ∧ live.free n = false)
    ∧ (∀ n ∈ lanes, let s := live.setFlag (lfmP n) lfmTiming true;
        s.txLive n = true ∧ mapEn (s.mapOf n) = true ∧ s.coding n = 0 ∧ s.free n = true ∧ s.txParked n = false ∧ s.lanes[n].excursion = false
          ∧ s.lanes[n].lateTx = none ∧ s.lanes[n].realignTx = false ∧ s.chk = [])
    ∧ (∀ n ∈ lanes, let s := live.fset (ltxP n) pgPark 2;
        s.txLive n = true ∧ mapEn (s.mapOf n) = true ∧ s.coding n = 0 ∧ s.txParked n = true)
    ∧ (∀ n ∈ lanes, let s := live.setFlag 0x001 (pwrDusk n) true;
        s.lanes[n].run = true ∧ mapEn (s.mapOf n) = true ∧ s.txLive n = false)
    ∧ mapEn (State.reset.mapOf 7) = false :=
  by
    iterate 4 refine ⟨by decide +kernel, ?_⟩
    decide +kernel

theorem reach_LineFrameReceived :
    (∀ n ∈ lanes, live.lanes[n].run = true ∧ mapEn (live.mapOf n) = true ∧ live.free n = false)
    ∧ (∀ n ∈ lanes, let s := live.setFlag (lrxP n) lrxLos true;
        s.lanes[n].run = true ∧ mapEn (s.mapOf n) = true ∧ s.rxLive n = true ∧ s.stopped (lfmP n) = false
          ∧ s.bad (lfmP n) = false ∧ s.flag (lrxP n) lrxLos = true ∧ htxOut s (mapA (s.mapOf n)) = .mission ∧ s.flag (htxP (mapA (s.mapOf n))) htxSubst = false)
    ∧ mapEn (State.reset.mapOf 7) = false :=
  ⟨by decide +kernel, by decide +kernel, by decide +kernel⟩

theorem reach_BuffersAndTokensAtFault :
    (∀ n ∈ lanes, let s := live.setFlag (lfmP n) lfmTiming true;
        s.txLive n = true ∧ s.free n = true ∧ s.coding n = 0 ∧ s.txParked n = false ∧ s.lanes[n].excursion = false)
    ∧ (∀ n ∈ lanes, let s := (lane n (fun l => { l with excursion := true })).setFlag (lfmP n) lfmTiming true;
        s.txLive n = true ∧ s.free n = true ∧ s.coding n = 0 ∧ s.txParked n = false ∧ s.lanes[n].excursion = true)
    ∧ live.free 7 = false
    ∧ (∀ n ∈ lanes, live.rxLive n = true ∧ live.stopped (lfmP n) = false ∧ live.bad (lfmP n) = false ∧ live.txLive n = true
        ∧ live.lanes[n].lateRx = none ∧ live.lanes[n].lateTx = none)
    ∧ (∀ n ∈ lanes, let s := lane n (fun l => { l with lateRx := some 9, lateTx := some 0 });
        s.rxLive n = true ∧ s.stopped (lfmP n) = false ∧ s.bad (lfmP n) = false ∧ s.txLive n = true ∧ s.lanes[n].lateRx = some 9 ∧ s.lanes[n].lateTx = some 0)
    ∧ (State.reset.rxLive 7 = false ∧ State.reset.txLive 7 = false) :=
  by
    iterate 5 refine ⟨by decide +kernel, ?_⟩
    decide +kernel

theorem reach_LineBlocksAndGradients :
    (∀ n ∈ lanes, let s := lane n (fun l => { l with fig := { l.fig with clipDone := [32768, 0] } });
        s.lanes[n].fig.clipDone = 32768 :: [0] ∧ s.fget (lrxP n) ⟨0x04C, 16, 16⟩ < 32768 ∧ s.lanes[n].clipPrev = false)
    ∧ (∀ n ∈ lanes, let s := (lane n (fun l => { l with fig := { l.fig with gradDone := [([1], false)] } })).wr (ra (lrxP n) 0x058) 0x20;
        s.lanes[n].fig.gradDone = ([1], false) :: []
          ∧ (s.rxLive n && !s.stopped (lfmP n) && !s.flag (lrxP n) lrxLos && s.flag (lrxP n) lrxCdr && tb (s.rd (ra (lrxP n) 0x058)) 5
              && !s.flag (wmkP n) wmkFlareRx) = true)
    ∧ (let s := (lane 7 (fun l => { l with fig := { l.fig with gradDone := [([1], false)] } })).wr (ra (lrxP 7) 0x058) 0;
        s.lanes[(7 : Lane)].fig.gradDone = ([1], false) :: [] ∧ tb (s.rd (ra (lrxP 7) 0x058)) 5 = false)
    ∧ (live.lanes[(7 : Lane)].fig.clipDone = [] ∧ live.lanes[(7 : Lane)].fig.gradDone = []) :=
  ⟨by decide +kernel, by decide +kernel, by decide +kernel, by decide +kernel⟩

theorem reach_LineQualityWindow :
    (∀ n ∈ lanes, ∀ l0 ∈ [live, up], ∀ q ∈ [({ w := 2 ^ 20, sumSq := 0, disagree := 0, suspects := 0, uncorr := 0 } : QualWin),
        { w := 2 ^ 24, sumSq := 2 ^ 40, disagree := 3355, suspects := 12, uncorr := 256 }],
      let s := l0.setLane n (fun l => { l with fig := { l.fig with winDone := [q] } });
      s.lanes[n].fig.winDone = q :: [] ∧ s.flag (lrxP n) lrxLos = l0.flag (lrxP n) lrxLos)
    ∧ (live.flag (lrxP 7) lrxLos = false ∧ up.flag (lrxP 7) lrxLos = true)
    ∧ bits (live.rd (ra (lrxP 7) 0x050)) 16 8 < 256
    ∧ live.lanes[(7 : Lane)].fig.winDone = [] := by decide +kernel

theorem reach_CommaAndHeaderCheck : ∀ n ∈ lanes, live.txLive n = true ∧ mapEn (live.mapOf n) = true ∧ live.coding n = 0 := by decide +kernel

theorem reach_CurrentMode :
    (∀ n ∈ lanes, let s := (lane n (fun l => { l with modeNamed := true })).fset (ltxP n) ltxOut 2;
        s.fget (ltxP n) ltxOut = 2 ∧ pinsOff s n = false ∧ s.flag (ltxP n) ltxComply = false)
    ∧ live.fget (ltxP 7) ltxOut ≠ 2
    ∧ (∀ n ∈ lanes, ((live.fset (ltxP n) ltxOut 2).setFlag (ltxP n) ltxComply true).flag (ltxP n) ltxComply = true)
    ∧ (∀ n ∈ lanes, let s := { lane n (fun l => { l with modeSwitch := some 2 }) with
          presses := [{ group := false, pages := [ltxP n], left := [(n.val, false, [ltxP n])], maps := [], modes := [n.val] }] };
        s.lanes[n].modeSwitch = some 2 ∧ ∀ x ∈ s.presses, n.val ∈ x.modes → x.left ≠ [])
    ∧ live.lanes[(7 : Lane)].modeSwitch = none :=
  by
    iterate 4 refine ⟨by decide +kernel, ?_⟩
    decide +kernel

theorem reach_LaneMemories :
    (let s := { live.fset (ltxP 7) ⟨0x040, 2, 2⟩ 2 with chk := [(wavMem 7 * 65536, 0b00011)] };
      txSrc s 7 = 2 ∧ s.isUe (wavMem 7 * 65536 + 4 * ((0 : BitVec 16).toNat / 4)) 4 = true ∧ s.lanes[(7 : Lane)].wavUe = false)
    ∧ txSrc live 7 ≠ 2
    ∧ (∀ n ∈ lanes, ∀ b < 5, tb live.lanes[n].nlCopy b = false)
    ∧ (∀ n ∈ lanes, tb (lane n (fun l => { l with nlCopy := 31 })).lanes[n].nlCopy 4 = true)
    ∧ flipActs live 6 = false :=
  by
    iterate 4 refine ⟨by decide +kernel, ?_⟩
    decide +kernel

theorem reach_HostLanes :
    (∀ h ∈ [(0 : Host16), 15], let s := live.setHost h (fun x => { x with fig := { x.fig with below := 64, above := 1024 } });
        s.hrxLive h = true ∧ s.flag (hrxP h) hrxLos = false ∧ 64 ≤ s.hosts[h].fig.below ∧ 1024 ≤ s.hosts[h].fig.above)
    ∧ (up.flag (hrxP 15) hrxLos = true ∧ live.hosts[(15 : Host16)].fig.above < 1024)
    ∧ (∀ h ∈ [(0 : Host16), 15], live.hrxLive h = true ∧ live.flag 0x007 clkRefh = true)
    ∧ up.flag 0x007 clkRefh = false
    ∧ (∀ n ∈ lanes, let s := lane n (fun l => { l with goodTx := true });
        let h := mapA (s.mapOf n);
        s.flag (hrxP h) hrxCdr = true ∧ s.laneOf h = some n ∧ s.lanes[n].run = true ∧ s.free n = false ∧ s.lanes[n].goodTx = true)
    ∧ up.flag (hrxP 15) hrxCdr = false
    ∧ State.reset.hrxLive 15 = false
    ∧ (∀ h ∈ [(0 : Host16), 15], (live.laneOf h).isSome = true ∧ live.pwr.hostOn.getLsbD (h.val / 4) = true)
    ∧ State.reset.laneOf 15 = none
    ∧ live.flag (htxP 15) htxPll = true ∧ up.flag (htxP 15) htxPll = false
    ∧ (∀ h ∈ [(0 : Host16), 15], let s := live.wr (ra (hrxP h) 0x040) 0x80;
        s.hrxLive h = true ∧ tb (s.rd (ra (hrxP h) 0x040)) 7 = true)
    ∧ tb (live.rd (ra (hrxP 15) 0x040)) 7 = false
    ∧ (∀ h ∈ [(0 : Host16), 15], let q : QualWin := { w := 2 ^ 20, sumSq := 2 ^ 40, disagree := 0, suspects := 0, uncorr := 0 };
        let s := live.setHost h (fun x => { x with fig := { x.fig with winDone := [q] } });
        s.hosts[h].fig.winDone = q :: [])
    ∧ (∀ h ∈ [(0 : Host16), 15], ∀ on ∈ [(0x20, true), (0, false)],
        let s := (live.setHost h (fun x => { x with fig := { x.fig with gradDone := [([1], false)] } })).wr (ra (hrxP h) 0x05C) on.1;
        s.hosts[h].fig.gradDone = ([1], false) :: []
          ∧ (s.hrxLive h && !s.stopped (hrxP h) && !s.flag (hrxP h) hrxLos && s.flag (hrxP h) hrxCdr && tb (s.rd (ra (hrxP h) 0x05C)) 5) = on.2)
    ∧ (live.hosts[(15 : Host16)].fig.winDone = [] ∧ live.hosts[(15 : Host16)].fig.gradDone = []) :=
  by
    iterate 14 refine ⟨by decide +kernel, ?_⟩
    decide +kernel

/-- A press of one page of lane n that waits for a boundary. -/
def waits (p : Nat) (left : List (Nat × Bool × List Nat)) : PressRun := { group := false, pages := [p], left := left, maps := [], modes := [] }

theorem reach_ParkAndUnpark :
    ((pageOf 0x02F).isSome = true ∧ live.ist.kind ≠ 1)
    ∧ (∀ st ∈ [1, 3], let s := live.fset 0x02F pgPark st;
        (pageOf 0x02F).isSome = true ∧ s.fget 0x02F pgPark = st ∧ inPress s 0x02F = false ∧ mapHeld s 0x02F = false)
    ∧ (live.fget 0x02F pgPark ≠ 1 ∧ live.fget 0x02F pgPark ≠ 3)
    ∧ (∀ st ∈ [1, 3], let s := live.fset (lrxP 7) pgPark st;
        s.fget (lrxP 7) pgPark = st ∧ inPress s (lrxP 7) = false ∧ mapHeld s (lrxP 7) = false ∧ s.running 7 = true ∧ s.coding 7 ≠ 1)
    ∧ (let s := { live with presses := [waits 0x02F [(7, false, [0x02F])]] };
        inPress s 0x02F = true)
    ∧ (let s := { live with ist := { live.ist with kind := 1, unit := 7 } };
        s.ist.kind = 1 ∧ s.ist.unit = (7 : Lane).val)
    ∧ pageOf 0x0FF = none :=
  by
    iterate 6 refine ⟨by decide +kernel, ?_⟩
    decide +kernel

theorem reach_PressAnswers :
    (let s := { live with presses := [waits 0x02F [(7, false, [0x02F])]] };
      (pageOf 0x02F).isSome = true ∧ inPress s 0x02F = true)
    ∧ ((pageOf 0x02F).isSome = true ∧ inPress live 0x02F = false ∧ live.fget 0x001 pwrState = 0 ∧ pagePower live 0x02F < 2 ∧ live.parked 0x02F = false)
    ∧ (let s := live.fset (lrxP 7) pgPark 2;
      s.presses = [] ∧ pressCheck s [lrxP 7] = none ∧ paceFail s [lrxP 7] = none ∧ placeOf s [lrxP 7] (lrxP 7) = some (7, true) ∧ s.running 7 = true
        ∧ s.ist.kind ≠ 1 ∧ lrxP 7 ≠ 0x008)
    ∧ groupPages live = []
    ∧ (let s := (live.fset (lrxP 7) pgPark 2).wr (ra 0x000 0x09C) (0x8000 + lrxP 7);
      groupPages s = [lrxP 7] ∧ s.presses = [] ∧ pressCheck s [lrxP 7] = none ∧ paceFail s [lrxP 7] = none
        ∧ placeOf s [lrxP 7] (lrxP 7) = some (7, true) ∧ s.running 7 = true ∧ s.ist.kind ≠ 1) :=
  by
    iterate 4 refine ⟨by decide +kernel, ?_⟩
    decide +kernel


theorem reach_StagedValues :
    (∀ h ∈ [(0 : Host16), 15], let x : PressRun := { group := false, pages := [hrxP h], left := [((7 : Lane).val, true, [hrxP h])], maps := [], modes := [] };
      let s := { lane 7 (fun l => { l with rxFirst := true }) with presses := [x] };
      true ∈ boundaryOf s 7 true ∧ s.presses = [x] ∧ s.twinHeld = [] ∧ s.fget (hrxP h) pgPark < 3 ∧ s.fget 0x001 pwrState ≠ 1)
    ∧ live.presses = []
    ∧ inPress live 0x02F = false
    ∧ (let s := { live with presses := [waits 0x02F []] };
      inPress s 0x02F = true) :=
  ⟨by decide +kernel, by decide +kernel, by decide +kernel, by decide +kernel⟩

theorem reach_EpochsAndRamps :
    (tb (0x80 : Byte).toNat (7 : Lane) = true ∧ tb (0x80 : Byte).toNat (0 : Lane) = false ∧ (laneRwe live 7 true).length ≠ 0)
    ∧ (∀ n ∈ lanes, ∀ o ∈ [(0x070 + 4 * 40, false), (0x044, true)],
      let s := { lane n (fun l => { l with rxFirst := true, epochRx := true, epochTx := true }) with held := [(ra (lrxP n) o.1, some 0x3FF)] };
      true ∈ boundaryOf s n true ∧ s.running n = true ∧ s.lanes[n].epochRx = true ∧ kget none s.held (ra (lrxP n) o.1) = some 0x3FF
        ∧ ramped (ra (lrxP n) o.1) = o.2 ∧ ∃ x ∈ laneRwe s n true, x.1 = ra (lrxP n) o.1)
    ∧ (∀ n ∈ lanes, let s := { lane n (fun l => { l with epochRx := true, rxFirst := true }) with held := [(ra (lrxP n) 0x044, some 0x3FF)] };
      s.lanes[n].rxFirst = true ∧ s.running n = true ∧ s.lanes[n].epochRx = true)
    ∧ (∀ rx ∈ boundaryOf live 7 false, (if rx then live.lanes[(7 : Lane)].epochRx else live.lanes[(7 : Lane)].epochTx) = false)
    ∧ (∀ n ∈ lanes, let s := lane n (fun l => { l with rxFirst := true });
      true ∈ boundaryOf s n true ∧ false ∈ boundaryOf s n false ∧ s.running n = true ∧ (s.hostsOf n).Nodup ∧ s.lanes[n].rxFirst = true)
    ∧ State.reset.running 7 = false :=
  by
    iterate 5 refine ⟨by decide +kernel, ?_⟩
    decide +kernel

/-! Premises: power, pace and VCORE -/

/-- A device in a power state, with every wake source enabled. -/
def inState (st : Nat) : State :=
  let s := ((live.fset pwrP pwrState st).wr (ra pwrP 0x044) 0xFF000F).wr (ra pwrP 0x054) 1
  { s with pwr := { s.pwr with sdKept := 0xFF } }

/-- CONFIRMED, every lane running with room to spare. -/
def roomy : State :=
  let s := live.setFlag pwrP vcoreConf true
  { s with pwr := { s.pwr with cLane := (List.range 8).map (fun n => (n, 2 ^ 40)), cRep := 2 ^ 40 } }

theorem reach_Dusk :
    (∀ n ∈ lanes, let s := up.fset pwrP idleT 1;
      s.running n = true ∧ s.flag (lrxP n) lrxLos = true ∧ s.fget pwrP idleT ≠ 0 ∧ s.cal[n].fg = false ∧ s.fget pwrP pwrState = 0
        ∧ s.fget (lrxP n) pgPark = 0 ∧ s.fget (ltxP n) pgPark = 0 ∧ s.fget (lfmP n) pgPark = 0 ∧ s.presses = [])
    ∧ live.flag (lrxP 7) lrxLos = false
    ∧ (∀ n ∈ lanes, let s := live.setFlag pwrP (pwrDusk n) true;
      s.flag pwrP (pwrDusk n) = true ∧ demandFail s (withLane s n) = some n)
    ∧ (∀ n ∈ lanes, let s := roomy.setFlag pwrP (pwrDusk n) true;
      s.flag pwrP (pwrDusk n) = true ∧ demandFail s (withLane s n) = none ∧ s.pwr.subOn.getLsbD n = false ∧ 2 + n.val ∉ s.pwr.faults
        ∧ 16 + n.val ∉ s.pwr.faults)
    ∧ live.flag pwrP (pwrDusk 7) = false
    ∧ (∀ n ∈ lanes, ∀ p ∈ [({ roomy.pwr with subOn := 0xFF } : PwrSt), { roomy.pwr with waitGood := [16 + n.val] }, { roomy.pwr with waitGood := [2 + n.val] }],
      let s := { roomy.setFlag pwrP (pwrWaking n) true with pwr := p };
      s.flag pwrP (pwrWaking n) = true ∧ demandFail s (withLane s n) = none ∧ ¬ (2 + n.val ∈ s.pwr.faults ∨ 16 + n.val ∈ s.pwr.faults)
        ∧ (s.pwr.subOn.getLsbD n = true ∨ 16 + n.val ∈ s.pwr.waitGood ∨ 2 + n.val ∈ s.pwr.waitGood) ∧ s.lanes[n].wakeCause ≠ activation)
    ∧ (∀ n ∈ lanes, let s := roomy.setFlag pwrP (pwrWaking n) true;
      s.flag pwrP (pwrWaking n) = true ∧ demandFail s (withLane s n) = none ∧ ¬ (2 + n.val ∈ s.pwr.faults ∨ 16 + n.val ∈ s.pwr.faults)
        ∧ ¬ (s.pwr.subOn.getLsbD n = true ∨ 16 + n.val ∈ s.pwr.waitGood ∨ 2 + n.val ∈ s.pwr.waitGood))
    ∧ (∀ n ∈ lanes, let s := { roomy.setFlag pwrP (pwrWaking n) true with pwr := { roomy.pwr with faults := [16 + n.val] } };
      s.flag pwrP (pwrWaking n) = true ∧ demandFail s (withLane s n) = none ∧ 16 + n.val ∈ s.pwr.faults)
    ∧ (∀ n ∈ lanes, let s := live.setFlag pwrP (pwrWaking n) true;
      s.flag pwrP (pwrWaking n) = true ∧ (demandFail s (withLane s n)).isSome = true)
    ∧ live.flag pwrP (pwrWaking 7) = false :=
  by
    iterate 9 refine ⟨by decide +kernel, ?_⟩
    decide +kernel

/-- LPMODE asserted and honoured. -/
def pinned (s : State) : State := cmisPut 26 0x40 { s with mgmt := { s.mgmt with lpmode := true } }

theorem reach_LowPowerRequests :
    (live.fget pwrP pwrState = 0 ∧ live.boot.ready = true ∧ live.pwr.coreOn = true ∧ live.shut = false ∧ live.presses = [] ∧ live.seq.drain ≠ 1)
    ∧ (inState 1).fget pwrP pwrState ≠ 0
    ∧ (let s := (inState 2).setFlag pwrP lpReqF true;
      s.fget pwrP pwrState = 2 ∧ lpPin s = false)
    ∧ (cmisByte (pinned live) 26).getLsbD 6 = true
    ∧ (cmisByte (cmisPut 26 0 live) 26).getLsbD 6 = false
    ∧ ((pinned (inState 2)).fget pwrP pwrState = 2 ∧ (pinned (inState 2)).flag pwrP lpReqF = false)
    ∧ (let s := each (List.range 8) (fun n s => s.setFlag pwrP (pwrDusk n) true) (live.setFlag pwrP ⟨0x040, 0, 1⟩ true);
      s.fget pwrP pwrState = 0 ∧ s.boot.ready = true ∧ s.pwr.coreOn = true ∧ s.shut = false ∧ s.flag pwrP ⟨0x040, 0, 1⟩ = true
        ∧ (∃ n : Lane, mapEn (s.mapOf n) = true) ∧ ∀ n : Lane, mapEn (s.mapOf n) = true → s.flag pwrP (pwrDusk n) = true)
    ∧ live.flag pwrP ⟨0x040, 0, 1⟩ = false :=
  by
    iterate 7 refine ⟨by decide +kernel, ?_⟩
    decide +kernel

theorem reach_LowPowerAndWake :
    (let s := { inState 1 with seq := { live.seq with drain := 1 } };
      s.fget pwrP pwrState = 1 ∧ s.seq.drain = 1 ∧ s.pwr.wakePend = none ∧ retained 175 = true ∧ s.rd flipMask = 0)
    ∧ (let s := { inState 1 with seq := { live.seq with drain := 1 }, pwr := { live.pwr with wakePend := some (4, 7) } };
      s.fget pwrP pwrState = 1 ∧ s.seq.drain = 1 ∧ s.pwr.wakePend = some (4, 7) ∧ lpHeld s = false)
    ∧ live.fget pwrP pwrState ≠ 1
    ∧ (let s := { inState 3 with pwr := { live.pwr with waitGood := [1, 2, 9] } };
      s.fget pwrP pwrState = 3 ∧ 1 ∉ s.pwr.faults ∧ lpHeld s = false ∧ 1 ∈ s.pwr.waitGood ∧ 2 + 7 ∈ s.pwr.waitGood)
    ∧ (let s := (inState 3).fset (lrxP 7) pgPark 2;
      lrxP 7 ∈ dataPages ∧ s.fget (lrxP 7) pgPark = 2 ∧ s.flag (lrxP 7) pgCtrlPark = false)
    ∧ live.fget pwrP pwrState ≠ 3 :=
  by
    iterate 5 refine ⟨by decide +kernel, ?_⟩
    decide +kernel

theorem reach_WakeSources :
    ((inState 2).fget pwrP pwrState = 2 ∧ lpHeld (inState 2) = false ∧ tb ((inState 2).rd (ra pwrP 0x044)) 0 = true)
    ∧ (tb ((inState 2).rd (ra pwrP 0x044)) 3 = true ∧ (inState 2).rd (ra pwrP 0x054) ≠ 0)
    ∧ (∀ n ∈ lanes, tb ((inState 2).rd (ra pwrP 0x044)) 2 = true ∧ tb ((inState 2).rd (ra pwrP 0x044)) (16 + n) = true
        ∧ (inState 2).pwr.sdKept.getLsbD n = true)
    ∧ ((inState 1).fget pwrP pwrState = 1 ∧ lpHeld (inState 1) = false ∧ tb ((inState 1).rd (ra pwrP 0x044)) 0 = true)
    ∧ (let en := (live.wr (ra pwrP 0x044) 0).rd (ra pwrP 0x044);
      tb en 0 = false ∧ tb en 3 = false ∧ tb en 2 = false)
    ∧ lpHeld ((inState 2).setFlag pwrP lpReqF true) = true :=
  by
    iterate 5 refine ⟨by decide +kernel, ?_⟩
    decide +kernel

/-- Capabilities of every lane, transmit and receive. -/
def caps (c : Nat) : List (Nat × Nat) := List.replicate 8 (c, c)

theorem reach_PaceWindows :
    ((∀ e ∈ paceList live (caps (2 ^ 40)), marginOk live e.2.2.1 1 e.2.2.2 = true) ∧ ∀ n : Lane, wakeShort live n = false)
    ∧ (let s := live.setFlag pwrP (pwrWaking 7) true;
      (∀ e ∈ paceList s (caps (2 ^ 40)), marginOk s e.2.2.1 1 e.2.2.2 = true) ∧ wakeShort s 7 = true)
    ∧ (∃ e ∈ paceList live (caps 0), marginOk live e.2.2.1 1 e.2.2.2 = false)
    ∧ ((paceMin (paceList live (caps 0))).isSome = true ∧ live.pwr.episode = false)
    ∧ (live.fget pwrP vcoreReq < 40 ∧ live.flag pwrP vcoreSlew = false)
    ∧ 40 ≤ (live.fset pwrP vcoreReq 40).fget pwrP vcoreReq
    ∧ { live with pwr := { live.pwr with episode := true } }.pwr.episode = true
    ∧ ∀ n : Lane, live.running n = true :=
  by
    iterate 7 refine ⟨by decide +kernel, ?_⟩
    decide +kernel

/-- A device in thermal shutdown. -/
def shutDown : State := live.setFlag thmP thmShut true

theorem reach_VcoreMoves :
    (live.fget pwrP vcoreReq < min (40 : BitVec 6).toNat 40)
    ∧ (0 < roomy.fget pwrP vcoreReq ∧ lowerOk roomy 0 = true)
    ∧ (0 < live.fget pwrP vcoreReq ∧ lowerOk live 0 = false)
    ∧ min (BitVec.ofNat 6 (live.fget pwrP vcoreReq)).toNat 40 = live.fget pwrP vcoreReq
    ∧ (let s := (live.setFlag pwrP avsEn true).fset pwrP vcoreSent 0;
      s.flag pwrP avsEn = true ∧ s.shut = false ∧ s.pwr.avsWhole = none ∧ s.fget pwrP vcoreSent ≠ s.fget pwrP vcoreReq ∧ s.pwr.avsFails < 2)
    ∧ (let s := { live.setFlag pwrP avsEn true with pwr := { live.pwr with avsWhole := some 40, avsFails := 2 } };
      s.flag pwrP avsEn = true ∧ s.pwr.avsWhole = some 40 ∧ 2 ≤ s.pwr.avsFails)
    ∧ (live.setFlag pwrP avsEn false).flag pwrP avsEn = false
    ∧ (∀ w ∈ [none, some 40], let s := { shutDown.setFlag pwrP avsEn true with pwr := { live.pwr with avsWhole := w } };
      s.shut = true ∧ s.flag pwrP avsEn = true ∧ s.pwr.avsWhole = w) :=
  by
    iterate 7 refine ⟨by decide +kernel, ?_⟩
    decide +kernel

theorem reach_DomainPower :
    (let s := { live with pwr := { live.pwr with waitGood := [0, 1, 9, 13, 23] } };
      s.presses = [] ∧ ∀ d ∈ [(0 : Fin 32), 1, 9, 13, 23], d.val ∈ s.pwr.waitGood)
    ∧ (31 : Fin 32).val ∉ live.pwr.waitGood := by decide +kernel

/-! Premises: lasers, auxiliary outputs and housekeeping -/

/-- Laser n in a state, its output group strobed and VAUX good. -/
def laser (n : Lane) (st : Nat) : State :=
  ((((live.setFlag lasP lasVaux true).wr (ra 0x062 0x0B4) 1).setLas n (fun l => { l with strobed := true, held := 0x1234 })).fset lasP (lbState n) st)

theorem reach_LaserTrips :
    (∀ n ∈ lanes, (laser n 1).fget lasP (lbState n) = 1 ∧ (laser n 2).fget lasP (lbState n) = 2)
    ∧ (∀ n ∈ lanes, (laser n 0).fget lasP (lbState n) ≠ 1 ∧ lasLogical (laser n 0) n ≠ 3 ∧ lasLogical (laser n 0) n ≠ 4)
    ∧ (∀ n ∈ lanes, lasLogical (laser n 3) n = 3 ∧ lasForced (laser n 3) n = false ∧ lasLogical (live.fset lasP (lbState n) 3) n = 3 ∧ lasForced live n = true)
    ∧ (∀ n ∈ lanes, lasLogical (laser n 4) n = 4) :=
  ⟨by decide +kernel, by decide +kernel, by decide +kernel, by decide +kernel⟩

theorem reach_LaserOutputs :
    (∀ n ∈ lanes, lasLogical (laser n 0) n = 0 ∧ lasLogical (laser n 1) n ≠ 0 ∧ (laser n 1).nv.queue = [] ∧ (laser n 1).nv.compact ≠ 1)
    ∧ (live.adac.txDis = false ∧ { live with adac := { live.adac with txDis := true } }.adac.txDis = true)
    ∧ ((laser 7 1).flag lasP lasVaux = true ∧ live.flag lasP lasVaux = false) :=
  ⟨by decide +kernel, by decide +kernel, by decide +kernel⟩


theorem reach_StrobesAndDither :
    (let s := live.setEng 4 (fun g => { g with phase := .waiting 5 });
      s.eng[(4 : Eng)].phase = .waiting (2 + 3) ∧ tb (8 : BitVec 4).toNat 3 = true ∧ s.chk = [])
    ∧ (∀ k ∈ [(0 : Fin 4), 3], tb (live.rd (ra (ncoP k) 0x040)) 0 = false ∧ tb ((live.wr (ra (ncoP k) 0x040) 1).rd (ra (ncoP k) 0x040)) 0 = true)
    ∧ (∀ k ∈ [(0 : Fin 4), 3], let s := { live with adac := { live.adac with phase := Vector.replicate 4 0xFFFFFFFF, ftw := Vector.replicate 4 1 } };
      ncoClocked s = true
        ∧ 0 < 1 ∧ (s.adac.phase[k].toNat + s.adac.ftw[k].toNat * (1 - 1)) / 2 ^ 32 < (s.adac.phase[k].toNat + s.adac.ftw[k].toNat * 1) / 2 ^ 32)
    ∧ ncoClocked State.reset = false
    ∧ (let s := live.fset adacP ⟨0x0A8, 3 * 7, 3⟩ 4;
      avNco s 7 = some 3 ∧ dithered s 7 = false
        ∧ (let t := { s.wr (ra (ncoP 3) 0x040) 1 with adac := { s.adac with strobed := 0xFFFF, held := [(7, 0x8000)] } }; avNco t 7 = some 3 ∧ dithered t 7 = true ∧ t.chk = []))
    ∧ avNco live 0 = none :=
  by
    iterate 5 refine ⟨by decide +kernel, ?_⟩
    decide +kernel

theorem reach_PeripheralI2c :
    (∀ p ∈ [(0 : Fin 2), 1], let s := (live.wr (mi2c p 0x100) 1).wr (mi2c p 0x104) (4 * 128 + 4 * 1024);
      tb (s.rd (mi2c p 0x110)) 0 = false ∧ tb (s.rd (mi2c p 0x100)) 0 = true ∧ ¬ 4 < bits (s.rd (mi2c p 0x104)) 7 3 ∧ ¬ 4 < bits (s.rd (mi2c p 0x104)) 10 3)
    ∧ (∀ p ∈ [(0 : Fin 2), 1], 4 < bits ((live.wr (mi2c p 0x104) (5 * 128)).rd (mi2c p 0x104)) 7 3)
    ∧ (∀ p ∈ [(0 : Fin 2), 1], tb ((live.wr (mi2c p 0x110) 1).rd (mi2c p 0x110)) 0 = true)
    ∧ (∀ p ∈ [(0 : Fin 2), 1], tb (live.rd (mi2c p 0x110)) 0 = false) :=
  ⟨by decide +kernel, by decide +kernel, by decide +kernel, by decide +kernel⟩

/-- A conversion for a job under way on both converters. -/
def converting (j : HkJob) (s : State) : State :=
  each [(0 : Fin 2), 1] (fun b s => s.setHk b (fun h => { h with run := some { job := j, set := { input := 0, gain := 0, phase := 0, bank := 0 }, ref := 0, acc := 0, discard := 0, start := 1 } })) s

/-- A sequence whose entry 0 converts input 0x40. -/
def sequenced : State :=
  each [0x060, 0x061] (fun p s => ((s.wr (ra p 0x040) 0x40).wr (ra p 0x080) 0x10).wr (ra p 0x084) 0x40) live

theorem reach_HousekeepingRequests :
    (∀ b ∈ [(0 : Fin 2), 1], let s := sequenced.setHk b (fun h => { h with inPass := true });
      hkServes s b = true ∧ tb (s.rd (ra (seqPage s b) 0x080)) 4 = true ∧ s.hk[b].inPass = true ∧ s.hk[b].streak = false)
    ∧ (∀ b ∈ [(0 : Fin 2), 1], let s := sequenced;
      hkServes s b = true ∧ tb (s.rd (ra (seqPage s b) 0x080)) 4 = true ∧ s.hk[b].inPass = false ∧ (hkJob s b (.entry 0)).isSome = true ∧ s.hk[b].run = none)
    ∧ (∀ b ∈ [(0 : Fin 2), 1], hkServes State.reset b = false ∧ hkUp State.reset 0 = false)
    ∧ (∀ n ∈ lanes, let s := converting (.entry 3) (laser n 1);
      s.fget lasP (lbState n) = 1 ∧ hkUp s 0 = true ∧ s.hk[(0 : Fin 2)].run.map (fun r => r.job) = some (.entry 3))
    ∧ (∀ n ∈ lanes, let s := converting (.guard (.flare 0)) (laser n 1);
      s.fget lasP (lbState n) = 1 ∧ hkUp s 0 = true ∧ s.hk[(0 : Fin 2)].run.map (fun r => r.job) = some (.guard (.flare 0)) ∧ s.hk[(0 : Fin 2)].guards.length < 4)
    ∧ (∀ n ∈ lanes, let s := (converting (.guard (.flare 0)) (laser n 1)).setHk 0 (fun h => { h with guards := [.las 0, .las 1, .las 2, .las 3] });
      s.fget lasP (lbState n) = 1 ∧ hkUp s 0 = true ∧ s.hk[(0 : Fin 2)].run.map (fun r => r.job) = some (.guard (.flare 0)) ∧ 4 ≤ s.hk[(0 : Fin 2)].guards.length)
    ∧ live.fget lasP (lbState 7) ≠ 1
    ∧ (∀ b ∈ [(0 : Fin 2), 1], sequenced.flag (hkP b) hkBusyF = false ∧ hkUp sequenced b = true ∧ sequenced.fget pwrP pwrState = 0 ∧ (hkJob sequenced b .host).isSome = true
        ∧ sequenced.hk[b].run = none ∧ (converting (.entry 3) sequenced).hk[b].run.isSome = true)
    ∧ (∀ b ∈ [(0 : Fin 2), 1], (live.setFlag (hkP b) hkBusyF true).flag (hkP b) hkBusyF = true) :=
  by
    iterate 8 refine ⟨by decide +kernel, ?_⟩
    decide +kernel

theorem reach_HousekeepingConversions :
    (∀ b ∈ [(0 : Fin 2), 1], ∀ j ∈ [HkJob.entry 15, .host, .guard (.las 7)], let s := converting j sequenced;
      hkUp s b = true ∧ s.hk[b].run.map (fun r => (r.job, r.need, r.ref)) = some (j, 1, 0) ∧ (hkChunks (List.replicate 256 true)).length = 1
        ∧ (hkJob s b j).isSome = true)
    ∧ (∀ b ∈ [(0 : Fin 2), 1], live.hk[b].run = none ∧ (hkJob (converting .host sequenced) b .host).isSome = true)
    ∧ (bandTemp live = none ∧ live.fget thmP thmBand = 4 ∧ (live.fset thmP thmBand 0).fget thmP thmBand ≠ 4)
    ∧ (let s := each (List.range 12) (fun i s => s.setFlag thmP (tempValid i) true) live;
      (bandTemp s).isSome = true) :=
  ⟨by decide +kernel, by decide +kernel, by decide +kernel, by decide +kernel⟩

/-! Premises: calibration and self-test -/

/-- The calibration cycle of a lane in a state. -/
def cycle (n : Lane) (st rqf attempt : Nat) : State :=
  (((live.fset bistP (calState n) st).fset bistP (calRqf n) rqf).fset bistP (calAttempt n) attempt).wr (ra bistP 0x144) 0x10001000

/-- A shadow phase over which the out slice answers as the slice at its target. -/
def alike (s : State) (n : Lane) : List Shadow := List.replicate (shadowLen s n) { y := 5, before := 5, mid := 5, after := 5 }

theorem sumOver_alike (k : Nat) (x g : Int) : sumOver (List.replicate k (x, x, g)) (fun y x _ => (y - x) * (y - x)) = 0 := by
  induction k with
  | zero => rfl
  | succ k ih => simp_all [sumOver, sumI, List.replicate_succ]

/-- Its figure is the highest: 6,000. -/
theorem rqf_alike (s : State) (n : Lane) (p : Nat) (x g : Int) (h : shadowed s n p { y := 5, before := 5, mid := 5, after := 5 } = (x, x, g)) :
    rqfOf ((alike s n).map (shadowed s n p)) = 6000 := by
  rw [alike, List.map_replicate, h, rqfOf, sumOver_alike]; rfl

/-- The verify of lane 7 with a limit, a number of failed attempts and no figure yet. -/
def verifying (limit attempt : Nat) : State := (cycle 7 3 0 attempt).fset bistP ⟨0x144, 0, 16⟩ limit

theorem rqf_verifying : ∀ l ∈ [6000, 6001], ∀ a ∈ [0, 1], rqfOf ((alike (verifying l a) 7).map (shadowed (verifying l a) 7 ((verifying l a).fget bistP (calTarget 7)))) = 6000 := by
  intro l hl a ha
  refine rqf_alike _ _ _ 5 0 ?_
  revert l a; decide +kernel

theorem reach_BackgroundCalibration :
    (∀ n ∈ lanes, ∀ st ∈ [1, 2, 3, 4, 5], (cycle n st 0 0).fget bistP (calState n) = st)
    ∧ (∀ s n, (alike s n).length = shadowLen s n)
    ∧ (∀ n ∈ lanes, live.fget bistP (calState n) = 0)
    ∧ (rqfMin (verifying 6000 0) ≤ 6000 ∧ ∀ a ∈ [0, 1], 6000 < rqfMin (verifying 6001 a) ∧ (verifying 6001 a).fget bistP (calState 7) = 3
        ∧ (verifying 6001 a).fget bistP (calAttempt 7) = a)
    ∧ ((verifying 6001 1).flag (lrxP 7) adcNoSpare = false
        ∧ (let s := (verifying 6001 1).setFlag (lrxP 7) adcNoSpare true; s.flag (lrxP 7) adcNoSpare = true ∧ s.bad (lrxP 7) = false))
    ∧ ((verifying 6000 0).cal[(7 : Lane)].round = 0 ∧ ((verifying 6000 0).setCal 7 (fun c => { c with round := 1 })).cal[(7 : Lane)].round ≠ 0)
    ∧ (∀ n ∈ lanes, (cycle n 4 4096 0).fget bistP (calState n) = 4 ∧ rqfMin (cycle n 4 4096 0) ≤ (cycle n 4 4096 0).fget bistP (calRqf n))
    ∧ (∀ n ∈ lanes, (cycle n 4 4095 0).fget bistP (calState n) = 4 ∧ (cycle n 4 4095 0).fget bistP (calRqf n) < rqfMin (cycle n 4 4095 0)
        ∧ (cycle n 4 4095 0).fget bistP (calAttempt n) = 0)
    ∧ (∀ n ∈ lanes, (cycle n 5 0 0).fget bistP (calState n) = 5 ∧ (cycle n 5 0 0).lanes[n].slices.length = 64
        ∧ (cycle n 5 0 0).fget bistP (calRqf n) < rqfWarn (cycle n 5 0 0)) :=
  ⟨by decide +kernel, fun _ _ => List.length_replicate .., by decide +kernel, by decide +kernel, by decide +kernel, by decide +kernel, by decide +kernel, by decide +kernel,
    by decide +kernel⟩

/-- Foreground calibration of a lane under way. -/
def foreground (n : Lane) : State := (live.setCal n (fun c => { c with fg := true })).fset bistP (calState n) 7

/-- A test under way. -/
def testing (kind unit : Nat) : State := { live with ist := { live.ist with kind := kind, unit := unit } }

theorem reach_ForegroundAndTests :
    (∀ n ∈ lanes, let s := live.fset (lrxP n) pgPark 2;
      s.parked (lrxP n) = true ∧ s.cal[n].fg = false ∧ s.bad (lrxP n) = false ∧ ¬ (s.ist.kind = 1 ∧ s.ist.unit = n.val))
    ∧ (∀ n ∈ lanes, live.parked (lrxP n) = false ∧ live.parked (lfmP n) = false)
    ∧ (∀ n ∈ lanes, let fine := List.replicate 65 6000;
        (foreground n).cal[n].fg = true ∧ (foreground n).fget bistP (calState n) = 7
          ∧ slicesFailed (foreground n) [] fine fine = [] ∧ slicesFailed (foreground n) [64] fine fine = [64]
          ∧ loopFails (foreground n) n 0 = false ∧ loopFails (foreground n) n (10 ^ 12) = true
          ∧ (foreground n).flag (lrxP n) adcNoSpare = false ∧ (foreground n).cal[n].retired ≠ some 64 ∧ (foreground n).bad (lrxP n) = false
          ∧ (foreground n).bad (ltxP n) = false)
    ∧ live.cal[(7 : Lane)].fg = false
    ∧ (∀ n ∈ lanes, State.reset.running n = false ∧ live.running n = true)
    ∧ (0x00001FFF : Word).getLsbD 12 = true
    ∧ (∀ n ∈ lanes, let v : Word := BitVec.ofNat 32 (0x1001 + 4 * n);
      v.getLsbD 12 = true ∧ live.ist.kind = 0 ∧ v.toNat % 4 = 1 ∧ bits v.toNat 2 10 = n.val ∧ istIdle State.reset n = true ∧ State.reset.ist.kind = 0
        ∧ windowArmed State.reset = false ∧ istIdle live n = false)
    ∧ (let v : Word := BitVec.ofNat 32 (0x1002 + 4 * 175);
      v.getLsbD 12 = true ∧ live.ist.kind = 0 ∧ v.toNat % 4 = 2 ∧ bits v.toNat 2 10 < 176 ∧ bits v.toNat 2 10 ≠ saveWindow ∧ windowArmed live = false
        ∧ live.ist.redirected = none ∧ windowArmed (live.fset 0x01B capStat 1) = true)
    ∧ (let v : Word := BitVec.ofNat 32 (0x1002 + 4 * 176);
      v.getLsbD 12 = true ∧ v.toNat % 4 = 2 ∧ 176 ≤ bits v.toNat 2 10)
    ∧ (let v : Word := BitVec.ofNat 32 (0x1002 + 4 * saveWindow);
      v.getLsbD 12 = true ∧ v.toNat % 4 = 2 ∧ bits v.toNat 2 10 = saveWindow)
    ∧ ((testing 1 7).ist.kind = 1 ∧ (testing 1 7).ist.unit = (7 : Lane).val ∧ (testing 2 175).ist.kind = 2)
    -- whether a spare is left is for the fuses to say: where they use none, the first macro test finds one; where all are used, none is left
    ∧ (Config.fuseRepair 175 = 0 → sparesLeft (testing 2 175) 175 ≠ ([], []))
    ∧ sparesLeft { testing 2 175 with rep := [(175, 0x3F)] } 175 = ([], []) :=
  ⟨by decide +kernel, by decide +kernel, by decide +kernel, by decide +kernel, by decide +kernel, by decide +kernel, by decide +kernel, by decide +kernel, by decide +kernel, by decide +kernel, by decide +kernel,
    fun h => by rw [sparesLeft, fuseSpares, h]; decide +kernel,
    by
      have h : ∀ i ∈ List.range 6, tb (kget 0 [(175, 0x3F)] 175) i = true := by decide
      simp only [sparesLeft, List.filter_eq_nil_iff.mpr (fun i hi => by simp [h i hi] : ∀ i ∈ List.range 6, ¬ ((!tb (fuseSpares 175) i && !tb (kget 0 [(175, 0x3F)] 175) i) = true)), List.filter_nil]⟩

/-! Premises: memories and events -/

theorem reach_SecDed : (0 < 13 ∧ 12 < 13) ∧ live.chkErr (174 * 65536) = 0 := by decide +kernel

theorem reach_CheckBitsAndChecker :
    (let s := { live with chk := [(174 * 65536, 0), (174 * 65536 + 1, 0b10000), (174 * 65536 + 2, 0b11100), (174 * 65536 + 3, 0b01101), (174 * 65536 + 4, 0b10001)] };
      let d := s.byte (174 * 65536);
      let p (a : Nat) : Bool := ((List.range 8).map d.getLsbD ++ (List.range 5).map (BitVec.ofNat 5 (checkBits d.toNat) ^^^ s.chkErr a).getLsbD).foldl xor false;
      let y (a : Nat) : Nat := ((BitVec.ofNat 5 (checkBits d.toNat) ^^^ s.chkErr a) ^^^ BitVec.ofNat 5 (checkBits d.toNat)).toNat % 16;
      (y (174 * 65536), p (174 * 65536)) = (0, false) ∧ (y (174 * 65536 + 1), p (174 * 65536 + 1)) = (0, true)
        ∧ (y (174 * 65536 + 2), p (174 * 65536 + 2)) = (12, true) ∧ (y (174 * 65536 + 3), p (174 * 65536 + 3)) = (13, true)
        ∧ (y (174 * 65536 + 4), p (174 * 65536 + 4)) = (1, false)) := by decide +kernel

theorem reach_MemoryUpkeep :
    -- region 5, EVTM: its only block is 174, of 128 lines of 64 bytes
    (blocksOf 5 = [174] ∧ blockLines 174 = 128 ∧ live.scrubNext.find? (fun x => regionOf x.1 == 5 && scrubs live x.1) = none
      ∧ scrubFrom live (kget 0 live.scrub 5) 0 (blocksOf 5) = some (174, 0, 1) ∧ (scrubFrom live 1 0 (blocksOf 5)).isSome = true
      ∧ (let s := { live with scrub := [(5, 127)] }; scrubFrom s (kget 0 s.scrub 5) 0 (blocksOf 5) = some (174, 127, 128))
      ∧ scrubFrom live 128 0 (blocksOf 5) = none)
    ∧ (let s := { live with scrubNext := [(174, 127)] };
      s.scrubNext.find? (fun x => regionOf x.1 == 5 && scrubs s x.1) = some (174, 127) ∧ 127 < blockLines 174 ∧ s.chk = [])
    ∧ (scrubFrom State.reset 0 0 (blocksOf 5) = none ∧ State.reset.scrubNext = [] ∧ scrubs State.reset 174 = false)
    ∧ (let s := { live with chk := [(174 * 65536 + 9, 0b00111)] };
      let a := 174 * 65536 + 0 * 64;
      ((174 ≠ saveWindow ∨ s.redirect = none) ∧ ¬ (s.ist.kind = 2 ∧ s.ist.unit = 174)) ∧ 9 < lineBytes 5 ∧ s.written (a + 9) = true
        ∧ eccOf (s.chkErr (a + 9)) = .ce ∧ ∀ w < lineBytes 5 / 8, s.isUe (a + w * 8) 8 = false)
    ∧ (let s := { live with chk := [(174 * 65536 + 9, 0b00111)], ist := { live.ist with kind := 2, unit := 174 } };
      s.ist.kind = 2 ∧ s.ist.unit = 174 ∧ s.written (174 * 65536 + 9) = true ∧ eccOf (s.chkErr (174 * 65536 + 9)) = .ce)
    ∧ (let s := { live with chk := [(174 * 65536 + 56, 0b00011)] };
      7 < lineBytes 5 / 8 ∧ s.written (174 * 65536 + 7 * 8) = true ∧ s.isUe (174 * 65536 + 7 * 8) 8 = true ∧ ueLogged s 174 7 = false
        ∧ ∀ v < 8, v ≠ 7 → ∀ j < 8, eccOf (s.chkErr (174 * 65536 + v * 8 + j)) = .ok)
    ∧ (eccOf ((upset (174 * 65536 + 63) 0x080 live).chkErr (174 * 65536 + 63)) = .ce ∧ 63 < lineBytes 5 ∧ live.written (174 * 65536 + 63) = true)
    ∧ (let s := { live with chk := [(174 * 65536 + 9, 0b00111)], ceSeen := [(174 * 65536 + 9, true)] };
      scrubs s 174 = true ∧ kget false s.ceSeen (174 * 65536 + 9) = true ∧ eccOf (s.chkErr (174 * 65536 + 9)) = .ce ∧ 9 < blockBytes 174)
    ∧ (scrubs live 174 = true ∧ live.ceSeen = [])
    ∧ (let s := { live with memPend := [(175, 16383), (164, 0)] };
      s.memPend.filter (fun p => regionOf p.1 == (6 : Fin 7).val) ≠ [] ∧ flipActs s 6 = false ∧ s.memPend.filter (fun p => regionOf p.1 == (0 : Fin 7).val) = [])
    ∧ live.memPend.filter (fun p => regionOf p.1 == (6 : Fin 7).val) = [] :=
  by
    iterate 10 refine ⟨by decide +kernel, ?_⟩
    decide +kernel

theorem reach_Events :
    (isStatAddr (ra 0x003 0x0BC) = true ∧ isStatAddr (ra 0x02F 0x00C) = true ∧ defined.getLsbD 500 = true)
    ∧ isStatAddr (ra 0x003 0x0C0) = false
    ∧ eventsNamed (ra 0x003 0x014) 0 = [] ∧ (eventsNamed (ra 0x000 0x014) 1) = [0]
    ∧ (let s := { live with evt := { live.evt with queue := [{ ev := 483, detail := 127, id := 0, after := [] }], unread := 1023 } };
      s.pwr.hkOn = true ∧ (grantable s (483 : Fin 512)).isSome = true ∧ blackboxEvent s 483 = false ∧ s.evt.lossSince = 0 ∧ s.evt.unread < 1024 ∧ flipActs s 5 = false)
    ∧ (let s := { live with evt := { live.evt with queue := [{ ev := 483, detail := 127, id := 0, after := [] }], unread := 1024 } };
      s.pwr.hkOn = true ∧ (grantable s (483 : Fin 512)).isSome = true ∧ blackboxEvent s 483 = false ∧ 1024 ≤ s.evt.unread)
    ∧ (let s := { live with evt := { live.evt with queue := [{ ev := 483, detail := 127, id := 0, after := [] }], unread := 1022, lossSince := 128, occ := 1 } };
      s.pwr.hkOn = true ∧ (grantable s (483 : Fin 512)).map (fun r => r.after) = some [] ∧ 0 < s.evt.lossSince ∧ s.evt.unread + 1 < 1024)
    ∧ (let s := { live with evt := { live.evt with unread := 1023, lossSince := 128 } };
      s.pwr.hkOn = true ∧ grantable s (483 : Fin 512) = none ∧ 483 ∉ 4 :: sideEvents ∧ 0 < s.evt.lossSince ∧ s.evt.unread < 1024)
    ∧ State.reset.pwr.hkOn = false
    ∧ (live.evt.lossSince = 0 ∧ grantable live (483 : Fin 512) = none ∧ live.evt.unread = 0)
    ∧ (let s := { live with evt := { live.evt with unread := 1, head := 1023, snap := some 1023 } };
      s.evt.unread ≠ 0 ∧ s.isUe (174 * 65536 + 8 * s.evt.head) 8 = false ∧ s.evt.snap = some s.evt.head ∧ s.evt.lossSince = 0)
    ∧ (let s := { live with evt := { live.evt with unread := 1, head := 1023 }, chk := [(174 * 65536 + 8 * 1023, 0b00011)] };
      s.evt.unread ≠ 0 ∧ s.isUe (174 * 65536 + 8 * s.evt.head) 8 = true ∧ s.evt.snap ≠ some s.evt.head)
    ∧ (let s := { live with evt := { live.evt with unread := 1024, head := 1023, snap := some 1023, lossSince := 1 } };
      s.evt.unread ≠ 0 ∧ s.evt.snap = some s.evt.head ∧ 0 < s.evt.lossSince ∧ s.evt.unread ≤ 1024) :=
  by
    iterate 11 refine ⟨by decide +kernel, ?_⟩
    decide +kernel

/-! Premises: observability -/

theorem reach_StarMap :
    (let s := (live.fset obsP ⟨0x050, 0, 18⟩ 262143).fset obsP ⟨0x054, 0, 13⟩ 1;
      s.flag obsP snapBusy = false ∧ s.fget obsP ⟨0x050, 0, 18⟩ + clampN 1 4096 (s.fget obsP ⟨0x054, 0, 13⟩) ≤ 262144 ∧ flipActs s 1 = false
        ∧ clampN 1 4096 (s.fget obsP ⟨0x054, 0, 13⟩) = 1)
    ∧ (let s := (live.fset obsP ⟨0x050, 0, 18⟩ 0).fset obsP ⟨0x054, 0, 13⟩ 1;
      clampN 1 4096 (s.fget obsP ⟨0x054, 0, 13⟩) = 1 ∧ (pointOf (s.fget obsP ⟨0x050, 0, 18⟩)).kind = 1)
    ∧ (let s := (live.fset obsP ⟨0x050, 0, 18⟩ 262143).fset obsP ⟨0x054, 0, 13⟩ 2;
      262144 < s.fget obsP ⟨0x050, 0, 18⟩ + clampN 1 4096 (s.fget obsP ⟨0x054, 0, 13⟩))
    ∧ ((live.setFlag obsP snapBusy true).flag obsP snapBusy = true ∧ live.flag obsP obsBuf = false)
    ∧ (let s := { live.fset obsP obsIndex 0x20000 with sec := { live.sec with lock := true } };
      s.flag obsP obsBuf = false ∧ (match pointOf (s.fget obsP obsIndex) with | .word _ _ => true | _ => false) = true ∧ s.sec.lock = true)
    ∧ (let s := (live.setFlag obsP obsBuf true).setFlag obsP snapBusy true;
      s.flag obsP obsBuf = true ∧ s.flag obsP snapBusy = true)
    ∧ (let s := (live.fset obsP ⟨0x050, 0, 18⟩ 0).fset obsP ⟨0x054, 0, 13⟩ 2;
      s.fget obsP ⟨0x050, 0, 18⟩ + clampN 1 4096 (s.fget obsP ⟨0x054, 0, 13⟩) ≤ 262144 ∧ ∀ e < 2, (obsRead (0 + e) s).2 = s)
    ∧ (let s := { live.setFlag obsP obsBuf true with obs := { live.obs with snapCnt := 1 } };
      s.flag obsP obsBuf = true ∧ s.flag obsP snapBusy = false ∧ 0 < s.obs.snapCnt ∧ s.isUe (ctrAddr (snapWord 0)) 8 = false ∧ s.fget obsP obsIndex % 4096 = 0
        ∧ (s.fset obsP obsIndex 1).fget obsP obsIndex % 4096 = 1)
    ∧ (let s := (live.wr (ra trcP 0x040) 0xFFFFFFFF).wr (ra trcP (0x044 + 4 * 7)) 0x80000000;
      let w := s.rd (ra trcP (0x044 + 4 * 7));
      trcOn s 6 = true ∧ trcDrives s = true ∧ tb w 31 = true ∧ (∀ k < 8, k ≠ 7 → tb (s.rd (ra trcP (0x044 + 4 * k))) 31 = false) ∧ s.trc.ptq.length < 64
        ∧ (obsRead (w % 2 ^ 18) s).1.status ≠ 3 ∧ 64 ≤ { s with trc := { s.trc with ptq := List.replicate 64 0 } }.trc.ptq.length)
    ∧ (let s := { (live.wr (ra trcP 0x040) 0xFFFFFFFF).wr (ra trcP (0x044 + 4 * 7)) 0x80020000 with sec := { live.sec with lock := true } };
      trcOn s 6 = true ∧ trcDrives s = true ∧ (obsRead (s.rd (ra trcP (0x044 + 4 * 7)) % 2 ^ 18) s).1.status = 3)
    ∧ trcOn (live.wr (ra trcP 0x040) 0) 6 = false :=
  by
    iterate 10 refine ⟨by decide +kernel, ?_⟩
    decide +kernel


/-- Capture unit k captures in S0, a sample of 5 waiting, with one word of its sheet of states and its reductions. -/
def ticking (k : Fin 4) (o v red : Nat) : State :=
  (((live.fset (capP k) capStat 1).wr (ra (capP k) o) v).wr (ra (capP k) 0x048) red).setCap k (fun c =>
    { c with started := true, live := true, feed := [{ v := 5, differs := false }] })

theorem reach_CapturesAndConstellations :
    (∀ k ∈ [(0 : Fin 4), 3], let s := live.wr (ra (capP k) 0x044) 0;
      armBad k s = false ∧ srcLive k s = true ∧ flipActs s 1 = false)
    ∧ armBad 0 { live with sec := { live.sec with dlTaken := true } } = true
    ∧ (∀ k ∈ [(0 : Fin 4), 3], let s := live.fset (capP k) capStat 1;
      s.fget (capP k) capStat = 1 ∧ s.caps[k].triggered = false ∧ s.flag (capP k) capSkewOk = false
        ∧ (s.setFlag (capP k) capSkewOk true).flag (capP k) capSkewOk = true ∧ capRuns k s = true ∧ capComplete k s = false
        ∧ s.caps[k].buf.length ≤ 192)
    ∧ (∀ k ∈ [(0 : Fin 4), 3], live.fget (capP k) capStat ≠ 1 ∧ live.fget (capP k) capStat ≠ 2 ∧ capRuns k live = false)
    ∧ (∀ k ∈ [(0 : Fin 4), 3], let s := (live.fset (capP k) capStat 2).setFlag (capP k) capTvalid true;
      capComplete k s = true)
    ∧ (∀ k ∈ [(0 : Fin 4), 3], let s := ((live.fset (capP k) capStat 1).wr (ra (capP k) 0x048) 1).setCap k (fun c => { c with buf := List.replicate 193 0 });
      capRuns k s = true ∧ 192 < s.caps[k].buf.length ∧ tb (s.rd (ra (capP k) 0x048)) 0 = true ∧ s.caps[k].raw = [] ∧ capD k s < 2 ^ 24
        ∧ 2 ^ 24 ≤ capD k (s.wr (ra (capP k) 0x04C) 0xFFFFFF))
    ∧ (∀ k ∈ [(0 : Fin 4), 3], let s := ((live.fset (capP k) capStat 1).wr (ra (capP k) 0x048) 1).setCap k (fun c => { c with buf := List.replicate 193 0, raw := [5] });
      capRuns k s = true ∧ 192 < s.caps[k].buf.length ∧ tb (s.rd (ra (capP k) 0x048)) 0 = true ∧ s.caps[k].raw ≠ [])
    ∧ (let s := { live.fset (capP 3) ⟨0x0CC, 0, 18⟩ 262143 with chk := (List.range 8).map (fun i => (128 * 65536 - 8 + i, 0)) };
      s.isUe ((32 * 3 + 262143 / 8192) * 65536 + 8 * (262143 % 8192)) 8 = false)
    ∧ (let s := { live.fset (capP 3) ⟨0x0CC, 0, 18⟩ 262143 with chk := [(128 * 65536 - 8, 0b00011)] };
      s.isUe ((32 * 3 + 262143 / 8192) * 65536 + 8 * (262143 % 8192)) 8 = true)
    -- one sample waits; the first condition of S0 holds, the second alone, neither
    ∧ (∀ k ∈ [(0 : Fin 4), 3], ∀ x ∈ [(0x080, 0x21401, true), (0x084, 0x201401, false), (0x080, 0, false)], let s := ticking k x.1 x.2.1 0;
      capRuns k s = true ∧ srcLive k s = true ∧ s.caps[k].live = true ∧ s.caps[k].started = true ∧ s.caps[k].feed.length = 1 ∧ s.rd (ra (capP k) 0x048) % 16 = 0
        ∧ condTrue k (capCond k (s.fget (capP k) capState) false s) {} false s = x.2.2
        ∧ condTrue k (capCond k (s.fget (capP k) capState) true s) {} false s = (x.1 == 0x084)
        ∧ tb (capCond k (s.fget (capP k) capState) false s) 17 = x.2.2)
    -- the reductions: a RAW sample passed over, one that waits for its record, one that completes it, an MMM block of 64, a histogram count
    ∧ (∀ k ∈ [(0 : Fin 4), 3], let s := ticking k 0x080 0 1;
      s.rd (ra (capP k) 0x048) % 16 = 1 ∧ s.caps[k].rawWait = 0 ∧ (s.caps[k].raw ++ [0]).length < (rawForm (capSrc k s).1).2 ∧ s.caps[k].buf = []
        ∧ 0 < (s.setCap k (fun c => { c with rawWait := 1 })).caps[k].rawWait)
    ∧ (∀ k ∈ [(0 : Fin 4), 3], let s := (ticking k 0x080 0 1).setCap k (fun c => { c with raw := List.replicate 6 0 });
      (s.caps[k].raw ++ [0]).length = (rawForm (capSrc k s).1).2 ∧ (rawForm (capSrc k s).1).2 < 16 ∧ s.caps[k].rateWait = false ∧ flipActs s 0 = false)
    ∧ (∀ k ∈ [(0 : Fin 4), 3], let s := (ticking k 0x080 0 2).setCap k (fun c => { c with mmmN := 63 });
      s.rd (ra (capP k) 0x048) % 16 = 2 ∧ 2 ^ (6 + bits (s.rd (ra (capP k) 0x048)) 4 4) = s.caps[k].mmmN + 1)
    ∧ (∀ k ∈ [(0 : Fin 4), 3], let s := ticking k 0x080 0 4;
      s.rd (ra (capP k) 0x048) % 16 = 4 ∧ s.caps[k].histN + 1 < 2 ^ (10 + bits (s.rd (ra (capP k) 0x048)) 8 5) ∧ s.obs.invalid = [] ∧ s.chk = []
        ∧ s.ctr (0x400 + 256 * k + histBin (capSrc k s).1 5) + 1 < 2 ^ 48 ∧ flipActs s 1 = false)
    ∧ (∀ k ∈ [(0 : Fin 4), 3], let s := (ticking k 0x080 0 0).setCap k (fun c => { c with started := false });
      capRuns k s = true ∧ srcLive k s = true ∧ s.caps[k].live = true ∧ s.caps[k].started = false ∧ s.caps[k].buf = [])
    ∧ (∀ k ∈ [(0 : Fin 4), 3], let s := ((live.fset (capP k) capStat 1).setFlag (lrxP 0) ⟨0x05C, 0, 1⟩ true).setCap k (fun c => { c with live := false });
      let s := { s with lanes := State.reset.lanes };
      capRuns k s = true ∧ srcLive k s = false ∧ s.caps[k].live = false ∧ s.caps[k].feed = [] ∧ s.caps[k].buf = [] ∧ s.caps[k].dropped = 0
        ∧ condTrue k (capCond k (s.fget (capP k) capState) false s) {} false s = false
        ∧ condTrue k (capCond k (s.fget (capP k) capState) true s) {} false s = false) :=
  by
    iterate 15 refine ⟨by decide +kernel, ?_⟩
    decide +kernel

/-! Premises: engines and the scheduler -/

/-- Engine e runs sheet 0, whose one step lies at word `pc`, the last of its range, and is `w`; `wq` waits. -/
def engine (e : Eng) (pc w : Nat) (wq : List (Nat × Word)) : State :=
  { live with
    mem := ((List.range 8).map (fun i => ((160 + pc / 8192) * 65536 + 8 * (pc % 8192) + i, BitVec.ofNat 8 (w / 256 ^ i))))
    seq := { live.seq with dir := [(0, BitVec.ofNat 32 (2 ^ 31 + pc * 2 ^ 15))] }
    eng := live.eng.set e { live.eng[e] with phase := .running, pc := pc, wq := wq } }

/-- A step word: OP, DST, SIG, IMM and AUX. -/
def stepWord (op dst sig imm aux : Nat) : Nat := op * 2 ^ 58 + dst * 2 ^ 48 + imm * 2 ^ 24 + sig * 2 ^ 16 + aux

/-- `AtStep` on the word that the engine is at, as a decidable proposition. -/
abbrev Ready (s : State) (e : Eng) (o : Op) : Prop :=
  engRuns s e = true ∧ s.eng[e].steps < 65536 ∧ s.eng[e].pc < 32768 ∧ inRange s e = true ∧ opOf (stepAt s e).op = some o
    ∧ ∀ i < 8, eccOf (s.chkErr ((160 + s.eng[e].pc / 8192) * 65536 + 8 * (s.eng[e].pc % 8192) + i)) = .ok

/-- `Ready` is `AtStep`. -/
theorem Ready.atStep {s : State} {e : Eng} {o : Op} (h : Ready s e o) : AtStep s e o (stepAt s e) :=
  ⟨h.1, h.2.1, h.2.2.1, h.2.2.2.1, rfl, h.2.2.2.2.1, h.2.2.2.2.2⟩

/-- The first and the last engine. -/
def engines : List Eng := [0, 4]

theorem reach_EngineArithmetic :
    (0x7FFFFF : BitVec 24).saddOverflow 1 = true ∧ (0x800000 : BitVec 24).ssubOverflow 1 = true
      ∧ 24 ≤ shiftCount (stepFields (stepWord 0x0A 8 0 0 0x1855)) 0 := by decide +kernel

theorem reach_OperandRules : 0xFFFF < 65536 ∧ (stepFields (stepWord 4 8 0 0xFFFF 0)).imm = 0xFFFF ∧ (stepFields (stepWord 4 8 0 0 0)).xGen = (0 : Fin 8).val
    ∧ (stepFields (stepWord 4 8 0 0 0)).yGen = (4 : Fin 8).val := by decide +kernel

theorem reach_EngineComputing :
    live.eng[(4 : Eng)].phase ≠ .running
    -- a posted write that is accepted first
    ∧ (let s := engine 4 0 (stepWord 4 8 0 0 0x55) [(ra 0x020 0x048, 0)];
      s.eng[(4 : Eng)].wq ≠ [] ∧ engRuns s 4 = true ∧ Ready (acceptAll 4 s) 4 .add)
    -- ADD to each destination of the class, from zero: T7, ACC1, PTR7, M7, BASE7, LEN7, nowhere; MOV to FLG
    ∧ (∀ e ∈ engines, ∀ d ∈ [0x0F, 0x01, 0x17, 0x1F, 0x27, 0x2F, 0x3F], let s := engine e 32767 (stepWord 4 d 0 0 0x55) [];
      let w := stepAt s e;
      Ready s e .add ∧ s.eng[e].wq = [] ∧ w.dst = d ∧ (dstOf d).map (opTakes .add) = some true ∧ srcOf w.srcA = .zero ∧ srcOf w.srcB = .zero
        ∧ (readSrc e .add w .zero s).ue = false)
    ∧ (∀ e ∈ engines, let s := engine e 32767 (stepWord 0x12 0x30 0 0 0x55) [];
      let w := stepAt s e;
      Ready s e .mov ∧ s.eng[e].wq = [] ∧ dstOf w.dst = some .flg ∧ opTakes .mov .flg = true ∧ (readSrc e .mov w .zero s).ue = false)
    -- X and Y memory as destination
    ∧ (∀ e ∈ engines, ∀ d ∈ [2, 3], let s := engine e 0 (stepWord 4 d 0 0 0x55) [];
      let w := stepAt s e;
      Ready s e .add ∧ s.eng[e].wq = [] ∧ w.dst = d ∧ (dstOf d).map (opTakes .add) = some true ∧ flipActs s 4 = false)
    -- every other computing opcode, MINX and MAXX into T6
    ∧ (∀ x ∈ [(1, Op.mpy, 0), (2, .mac, 1), (3, .msu, 0), (5, .sub, 8), (6, .min, 8), (7, .max, 8), (8, .minx, 0x0E), (9, .maxx, 0x0E), (0x0A, .shl, 8),
          (0x0B, .shr, 8), (0x0C, .and, 8), (0x0D, .or, 8), (0x0E, .xor, 8)],
      let s := engine 4 0 (stepWord x.1 x.2.2 0 0 0x55) [];
      let w := stepAt s 4;
      Ready s 4 x.2.1 ∧ s.eng[(4 : Eng)].wq = [] ∧ (dstOf w.dst).map (opTakes x.2.1) = some true ∧ (readSrc 4 x.2.1 w .zero s).ue = false)
    -- an uncorrectable X word as source
    ∧ (let s := { engine 4 0 (stepWord 4 8 0 0 0x50) [] with chk := [(engWord 4 false 0, 0b00011)], wflag := [] };
      let w := stepAt s 4;
      Ready s 4 .add ∧ s.eng[(4 : Eng)].wq = [] ∧ dstOf w.dst = some (.t 0) ∧ srcOf w.srcA = .xd ∧ (readIf 4 .add w (sourcesOf .add (.t 0) w) .xd s).ue = true)
    -- a destination outside the opcode's classes, and one that names none
    ∧ (∀ d ∈ [0x08, 0x3E], let s := engine 4 0 (stepWord 1 d 0 0 0x55) [];
      Ready s 4 .mpy ∧ s.eng[(4 : Eng)].wq = [] ∧ (dstOf (stepAt s 4).dst).map (opTakes .mpy) ≠ some true) :=
  by
    iterate 7 refine ⟨by decide +kernel, ?_⟩
    decide +kernel

theorem reach_EngineControl :
    (∀ e ∈ engines, ∀ sig ∈ [0, 3], let s := (engine e 32767 (stepWord 0x1B 0 sig 0 0x5) []).setEng 2 (fun g => { g with phase := .waiting (2 + sig) });
      let u := acceptAll e s;
      Ready u e .sig ∧ (stepAt u e).sig = sig ∧ u.eng[(2 : Eng)].phase = .waiting (2 + sig)
        ∧ u.fget adacP ⟨0x0A0, 0, 2⟩ = 0)
    ∧ (let w := stepFields (stepWord 0x1B 0 0 0 0x2000 + 2 ^ 57); w.sat = true)
    ∧
    (∀ e ∈ engines, let s := engine e 32767 (stepWord 0x10 0x0F 0 0x040 0x020) [];
      let w := stepAt s e;
      Ready s e .ld ∧ s.eng[e].wq = [] ∧ (dstOf w.dst).map Dst.isWord = some true ∧ (busRead .sheet (sheetAddr s.eng[e] w) s).2.eng[e].phase = .running)
    ∧ (∀ e ∈ engines, let s := (engine e 32767 (stepWord 0x10 0x0F 0 0x040 0x020) []).setEng e (fun g => { g with phase := .loading 0xFFFFFFFF });
      s.eng[e].phase = .loading 0xFFFFFFFF ∧ dstOf (stepAt s e).dst = some (.t 7))
    ∧ live.eng[(4 : Eng)].phase = .idle
    ∧ (∀ e ∈ engines, let s := engine e 32767 (stepWord 0x11 5 0 0x040 0x020) (List.replicate 7 (0, 0));
      let w := stepAt s e;
      Ready s e .st ∧ w.dst < 16 ∧ (readSrc e .st w (srcOf w.dst) s).ue = false ∧ s.eng[e].wq.length < 8)
    ∧ (∀ e ∈ engines, let s := engine e 32767 (stepWord 0x11 15 0 0x040 0x020) (List.replicate 8 (0, 0));
      let w := stepAt s e;
      Ready s e .st ∧ w.dst < 16 ∧ (readSrc e .st w (srcOf w.dst) s).ue = false ∧ 8 ≤ s.eng[e].wq.length)
    ∧ (let s := { engine 4 0 (stepWord 0x11 0 0 0x040 0x020) [] with chk := [(engWord 4 false 0, 0b00011)] };
      let w := stepAt s 4;
      Ready s 4 .st ∧ w.dst < 16 ∧ (readSrc 4 .st w (srcOf w.dst) s).ue = true)
    ∧ (∀ e ∈ engines, let s := (engine e 32767 (stepWord 0x11 5 0 0x040 0x020) (List.replicate 8 (ra 0x020 0x048, 0))).setEng e (fun g => { g with phase := .stFull });
      let u := acceptFront e s;
      let w := stepAt u e;
      s.eng[e].phase = .stFull ∧ 8 ≤ s.eng[e].wq.length ∧ u.eng[e].phase = .stFull ∧ w.dst < 16
        ∧ (readSrc e .st w (srcOf w.dst) (u.setEng e (fun h => { h with phase := .running }))).ue = false ∧ u.eng[e].wq.length < 8)
    ∧ (∀ x ∈ [(0x18, Op.br), (0x19, .brc), (0x1F, .end_)], let s := engine 4 32767 (stepWord x.1 0 0 0xFFFF 0) [];
      Ready s 4 x.2 ∧ s.eng[(4 : Eng)].wq = [] ∧ s.eng[(4 : Eng)].bind < 64)
    ∧ (let s := (engine 4 0 (stepWord 0x1A 0 0x3F 1 0) []).setHk 1 (fun h => { h with res := h.res.set (15 : Fin 17) { h.res[(15 : Fin 17)] with fresh := true } });
      let w := stepAt s 4;
      Ready s 4 .wait ∧ s.eng[(4 : Eng)].wq = [] ∧ waitKnown w.sig = true ∧ s.seq.drain = 0 ∧ waitLevel s w.sig = true)
    ∧ (let s := engine 4 0 (stepWord 0x1A 0 0x05 0 0) [];
      let w := stepAt s 4;
      Ready s 4 .wait ∧ s.eng[(4 : Eng)].wq = [] ∧ waitKnown w.sig = true ∧ s.seq.drain = 0 ∧ waitLevel s w.sig = false ∧ w.imm = 0)
    ∧ (let s := engine 4 0 (stepWord 0x1A 0 0x10 1 0) [];
      let s := { s with seq := { s.seq with drain := 1 } };
      Ready s 4 .wait ∧ s.eng[(4 : Eng)].wq = [] ∧ waitKnown (stepAt s 4).sig = true ∧ s.seq.drain ≠ 0)
    ∧ (let s := engine 4 0 (stepWord 0x1A 0 0x20 0xFFFF 0) [];
      let w := stepAt s 4;
      Ready s 4 .wait ∧ s.eng[(4 : Eng)].wq = [] ∧ waitKnown w.sig = true ∧ s.seq.drain = 0 ∧ waitLevel s w.sig = false ∧ w.imm ≠ 0)
    ∧ (let s := engine 4 0 (stepWord 0x1A 0 0x06 0 0) [];
      Ready s 4 .wait ∧ s.eng[(4 : Eng)].wq = [] ∧ waitKnown (stepAt s 4).sig = false)
    ∧ (∀ x ∈ [0x00, 0x01, 0x02, 0x05, 0x10, 0x1F, 0x2F], let s := (engine 4 0 0 []).setEng 4 (fun g => { g with phase := .waiting x });
      s.eng[(4 : Eng)].phase = .waiting x)
    ∧ (let s := live.setHk 0 (fun h => { h with res := h.res.set (15 : Fin 17) { h.res[(15 : Fin 17)] with fresh := true } });
      waitLevel s 0x2F = true ∧ 0x2F ≠ 0x10)
    ∧ (∀ x ∈ [3, 0x7F, 0x87, 4, 0x3F, 0x88, 0xFF], let s := engine 4 0 (stepWord 0x1B 0 x 0 0x5) [];
      let w := stepAt s 4;
      Ready s 4 .sig ∧ s.eng[(4 : Eng)].wq = [] ∧ w.sig = x ∧ (readSrc 4 .sig w (srcOf w.srcA) s).ue = false ∧ s.eng[(4 : Eng)].skip ≤ s.eng[(4 : Eng)].sigs)
    ∧ (let s := (engine 4 0 0 []).setEng 4 (fun g => { g with steps := 65536 });
      s.eng[(4 : Eng)].phase ≠ .idle ∧ 65536 ≤ s.eng[(4 : Eng)].steps)
    ∧ live.eng[(4 : Eng)].steps < 65536 :=
  by
    iterate 19 refine ⟨by decide +kernel, ?_⟩
    decide +kernel

/-- A device whose binding b is the only enabled one, for a trigger, with its sheet 0 VALID or not. -/
def binding (b src num : Nat) (valid : Bool) : State :=
  { live.wr (bindAddr b) (2 ^ 28 + src * 2 ^ 12 + num * 2 ^ 16) with seq := { live.seq with dir := if valid then [(0, 0x80000000)] else [] } }

/-- A request for sheet 0. -/
def request (b : Nat) (sys : Bool) : SeqReq := { bind := b, sheet := 0, inst := 0, prio := 1, sys := sys }

theorem reach_Scheduler :
    (∀ x ∈ [(0, 6, 511), (63, 1, 15)], let s := binding x.1 x.2.1 x.2.2 true;
      boundTo s x.2.1 x.2.2 = [x.1] ∧ tb (s.dirOf (bits (s.rd (bindAddr x.1)) 0 8)) 31 = true ∧ s.seq.queue = []
        ∧ ∀ i < 8, eccOf (s.chkErr (ctrAddr (0x80 + 2 * x.1) + i)) = .ok)
    ∧ (let s := binding 63 1 15 true;
      let s := { s with seq := { s.seq with queue := [request 63 false] } };
      boundTo s 1 15 = [63] ∧ tb (s.dirOf (bits (s.rd (bindAddr 63)) 0 8)) 31 = true ∧ (∃ q ∈ s.seq.queue, q.bind = 63)
        ∧ ∀ j ∈ [0x80, 0x81], ∀ i < 8, eccOf (s.chkErr (ctrAddr (j + 2 * 63) + i)) = .ok)
    ∧ (let s := binding 63 1 15 true;
      let s := { s with seq := { s.seq with fired := [63] } };
      s.seq.fired = [63] ∧ tb (s.dirOf (bits (s.rd (bindAddr 63)) 0 8)) 31 = true)
    ∧ (let s := binding 0 6 511 false;
      boundTo s 6 511 = [0] ∧ tb (s.dirOf (bits (s.rd (bindAddr 0)) 0 8)) 31 = false)
    ∧ (boundTo live 6 511 = [] ∧ boundTo live 1 15 = [])
    ∧ ((live.wr (ra seqP (0x060 + 4 * 15)) 1).rd (ra seqP (0x060 + 4 * 15)) ≠ 0 ∧ live.rd (ra seqP (0x060 + 4 * 15)) = 0)
    ∧ (let s := binding 0 6 511 true;
      let s := { s with seq := { s.seq with queue := [request 0 true] } };
      s.seq.fired = [] ∧ s.seq.drain = 0 ∧ nextReq s = some (request 0 true, 4) ∧ tb (s.dirOf 0) 31 = true)
    ∧ (let s := binding 0 6 511 false;
      let s := { s with seq := { s.seq with queue := [request 0 true] } };
      s.seq.fired = [] ∧ s.seq.drain = 0 ∧ nextReq s = some (request 0 true, 4) ∧ tb (s.dirOf 0) 31 = false)
    ∧ (live.seq.fired = [] ∧ nextReq live = none)
    ∧ (let s := { live.fset seqP seqAge 1 with seq := { live.seq with queue := [request 0 true] } };
      s.fget seqP seqAge ≠ 0 ∧ s.seq.queue[0]? = some (request 0 true))
    ∧ (live.fset seqP seqAge 0).fget seqP seqAge = 0
    ∧ (let s := engine 4 0 0 [];
      let s := { s with seq := { s.seq with drain := 2 } };
      s.seq.drain ≠ 0 ∧ s.eng[(4 : Eng)].phase ≠ .idle)
    ∧ (live.seq.drain = 0 ∧ live.eng[(4 : Eng)].phase = .idle ∧ (0 : Eng) ≠ 4)
    ∧ (let s := { live with seq := { live.seq with reload := [(255, [request 0 true])] } };
      s.nv.hold = false ∧ s.seq.reload.find? (fun x => x.1 == 255) = some (255, [request 0 true]) ∧ (∀ x ∈ s.seq.reload, x.1 ≠ 254) ∧ reloadImage (s.fset secP bootSlot 2) 255 = none)
    ∧ (let s := (({ live with sec := { live.sec with flash := (List.range 256).map (fun i => (i, 0)) } }).fset secP bootSlot 0).setFlag secP custIn false;
      let s := { s with sec := { s.sec with baseSha := sha512 (List.replicate 256 0) } };
      (reloadImage s 0).isSome = true)
    ∧ ({ live with nv := { live.nv with hold := true } } : State).nv.hold = true :=
  ⟨by decide +kernel, by decide +kernel, by decide +kernel, by decide +kernel, by decide +kernel, by decide +kernel, by decide +kernel, by decide +kernel, by decide +kernel, by decide +kernel, by decide +kernel, by decide +kernel, by decide +kernel, by decide +kernel, by decide +kernel, rfl⟩
/-! Premises: the watermark modem and flares -/

/-- A frame to be sent. -/
def frameOf (cls : Nat) : WmkFrame := { cls := cls, typ := 7, seq := 255, payload := [1#8] }

/-- The overlay of a lane on, with frames waiting. -/
def overlay (n : Lane) (q : List WmkFrame) (f : WmkSt → WmkSt) : State :=
  (live.setForce (ra (wmkP n) wmkTxEn.off) (2 ^ wmkTxEn.lsb)).setWmk n (fun w => f { w with queue := q })

theorem reach_WatermarkSending :
    (∀ n ∈ lanes, live.ffget (wmkP n) wmkTxEn ≠ 1)
    ∧ (∀ n ∈ lanes, let s := overlay n [] id;
      s.flag (wmkP n) wmkBusy = false ∧ s.ffget (wmkP n) wmkTxEn = 1 ∧ s.flag (wmkP n) wmkHold = false)
    ∧ (∀ n ∈ lanes, let s := overlay n [frameOf 3, frameOf 0] id;
      wmkNext s n = some (frameOf 0) ∧ s.flag (wmkP n) wmkHold = false ∧ s.wmk[n].sending = none ∧ s.wmk[n].flareOn = false ∧ s.wmk[n].flareWait = false
        ∧ s.ffget (wmkP n) wmkTxEn = 1 ∧ s.running n = true)
    ∧ (∀ n ∈ lanes, let s := (overlay n [frameOf 3, frameOf 0] id).setFlag (wmkP n) wmkHold true;
      wmkNext s n = some (frameOf 0) ∧ s.flag (wmkP n) wmkHold = true)
    ∧ (∀ n ∈ lanes, let s := overlay n [] id;
      wmkNext s n = none ∧ s.wmk[n].sending = none ∧ s.wmk[n].flareOn = false ∧ s.wmk[n].flareWait = false ∧ s.ffget (wmkP n) wmkTxEn = 1 ∧ s.running n = true)
    ∧ (∀ n ∈ lanes, ∀ c ∈ [0, 1], let s := (overlay n [] (fun w => { w with sending := some (frameOf c), flareWait := true })).fset lasP (lbState n) 1;
      s.wmk[n].sending = some (frameOf c) ∧ s.wmk[n].flareWait = true ∧ s.fget lasP (lbState n) = 1)
    ∧ (∀ n ∈ lanes, live.wmk[n].sending = none)
    ∧ (∀ n ∈ lanes, let ctl := (live.wr (ra (wmkP n) 0x040) 0x600).rd (ra (wmkP n) 0x040);
      tb ctl 9 = true ∧ tb ctl 10 = true)
    ∧ (∀ n ∈ lanes, let ctl := (live.wr (ra (wmkP n) 0x040) 0).rd (ra (wmkP n) 0x040);
      tb ctl 9 = false ∧ tb ctl 10 = false) :=
  by
    iterate 8 refine ⟨by decide +kernel, ?_⟩
    decide +kernel

/-- The received symbols of a frame after its sync, and the 70 that follow it. -/
def symbolsOf (typ : Nat) (payload : List Byte) : List Bool :=
  (wmkSymbols 7 { cls := 1, typ := typ, seq := 255, payload := payload }).drop 96 ++ convEnc 0 (List.replicate 35 false)

/-- A receiver that lacks the last symbol of a frame with this header. -/
def almost (typ len : Nat) (l : List Bool) : WmkRx := { tail := some (BitVec.ofNat 32 (typ * 2 ^ 28 + (len - 1) * 2 ^ 20 + 2 ^ 9), 1, l.dropLast.reverse) }

/-- The receiver of a lane on; `ctl` is WMK_CTRL. -/
def listening (n : Lane) (ctl : Nat) : State := live.wr (ra (wmkP n) 0x040) ctl

/-- The bits that the correlator holds after each symbol of a list, the last first. -/
def shifted : Nat → List Bool → List Nat
  | _, [] => []
  | r, b :: l => let r := (2 * r + bit b) % 2 ^ 32; r :: shifted r l

theorem shifted_getElem? (l : List Bool) (r i : Nat) (h : i < l.length) :
    (shifted r l)[i]? = some ((l.take (i + 1)).foldl (fun r b => (2 * r + bit b) % 2 ^ 32) r) := by
  induction l generalizing r i with
  | nil => exact absurd h (Nat.not_lt_zero i)
  | cons b l ih =>
    cases i with
    | zero => rfl
    | succ i => exact ih _ i (Nat.lt_of_succ_lt_succ h)

/-- A frame of one byte, the bits after it, and the symbols of both. -/
def shortFrame : WmkFrame := { cls := 1, typ := 7, seq := 255, payload := [0xA5] }
def shortTail : List Bool := List.replicate 35 false
def shortSymbols : List Bool := wmkSymbols 7 shortFrame ++ convEnc 0 shortTail

theorem short_sync : (shifted 0 shortSymbols).map (syncSeen 0) = (List.range shortSymbols.length).map (fun i => decide (i = 95)) := by decide +kernel

theorem reach_WatermarkDecoding :
    shortFrame.typ < 16 ∧ 1 ≤ shortFrame.typ ∧ shortFrame.typ ≤ 7 ∧ 1 ≤ shortFrame.payload.length ∧ shortFrame.payload.length ≤ 256
      ∧ shortTail.length = 35 ∧ ({} : WmkRx).syms = none ∧ ({} : WmkRx).hdr = none ∧ ({} : WmkRx).tail = none
      ∧ ∀ i < shortSymbols.length, syncSeen 0 (rxScan 0 (shortSymbols.take (i + 1)) {}).1.reg = decide (i = 95) := by
  refine ⟨by decide, by decide, by decide, by decide, by decide, by decide, rfl, rfl, rfl, fun i h => ?_⟩
  have e := congrArg (fun l => l[i]?) short_sync
  simp only [List.getElem?_map, shifted_getElem? _ _ _ h, List.getElem?_range h, Option.map_some, Option.some.injEq] at e
  rw [rxScan_reg]; exact e

/-- What the decoder makes of the symbols of a frame. -/
theorem short_decoded : ∀ p ∈ [[0, 0, 26, 1], [0, 0, 26, 1, 0x55]], viterbi (symbolsOf 7 p) =
    (let h := wmkHeader 7 { cls := 1, typ := 7, seq := 255, payload := p };
      msbFirst 32 h ++ msbFirst 16 (wmkHdrCrc h) ++ byteBits p ++ msbFirst 32 (crc32 p) ++ List.replicate 6 false) := by decide +kernel

/-- The last symbol of a frame ends its reception. -/
theorem last_symbol (h : BitVec 32) (b : Bool) (l : List Bool) : (rxScan 0 [b] { tail := some (h, 1, l) }).2 = [rxPayload h (b :: l)] := by
  simp only [rxScan, rxTail, rxSym, Nat.le_refl, if_true]
  rfl

/-- A receiver that lacks only the last symbol of a frame, whatever TYPE its header names. -/
theorem short_received : ∀ p ∈ [[0, 0, 26, 1], [0, 0, 26, 1, 0x55]], ∀ y ∈ [1, 2, 3, 4, 5, 6, 7],
    ∃ b x f, (rxScan 0 [b] x).2 = [.frame f] ∧ rxTyp f = y ∧ f.payload = p := by
  intro p hp y hy
  let h : BitVec 32 := BitVec.ofNat 32 (y * 2 ^ 28 + (p.length - 1) * 2 ^ 20)
  have hd := short_decoded p hp
  obtain ⟨b, l, hl⟩ : ∃ b l, (symbolsOf 7 p).reverse = b :: l := by
    cases hc : (symbolsOf 7 p).reverse with
    | nil =>
      refine absurd (congrArg List.length hc) ?_
      clear hd hc h hy y
      revert p
      decide +kernel
    | cons b l => exact ⟨b, l, rfl⟩
  refine ⟨b, { tail := some (h, 1, l) }, { hdr := h, payload := p }, ?_, ?_, rfl⟩
  · rw [last_symbol, ← hl]
    simp only [rxPayload, List.reverse_reverse, hd]
    clear hd hl
    revert y p
    decide +kernel
  · clear hd hl
    revert y p
    decide +kernel

theorem reach_WatermarkReception :
    (∀ n ∈ lanes, demodOn (listening n 0x240) n = true ∧ (listening n 0x240).flag (wmkP n) wmkLockF = false ∧ tb ((listening n 0x240).rd (ra (wmkP n) 0x040)) 9 = true
        ∧ (listening n 0x240).flag (wmkP n) wmkFlareRx = false)
    ∧ (∀ n ∈ lanes, demodOn (listening n 0) n = false)
    -- no end of a reception, and each way for one to end
    ∧ (rxScan 0 [true] {}).2 = []
    ∧ (rxScan 0 [true] { reg := 0x3B5DE4A7 / 2, syms := some (0, []) }).2 = [.falseSync]
    ∧ (rxScan 0 [true] { syms := some (165, List.replicate 165 true) }).2 = [.hdrErr]
    ∧ (let l := (symbolsOf 8 [1]).take 166;
      (rxScan 0 [l.getLastD false] { syms := some (165, l.dropLast.reverse) }).2 = [.typeErr])
    ∧ (rxScan 0 [true] (almost 7 1 (List.replicate 260 true))).2 = [.crcErr]
    -- a frame of four bytes and one of five, whatever TYPE their header names
    ∧ (∀ p ∈ [[0, 0, 26, 1], [0, 0, 26, 1, 0x55]], ∀ y ∈ [1, 2, 3, 4, 5, 6, 7], ∃ b x f, (rxScan 0 [b] x).2 = [.frame f] ∧ rxTyp f = y ∧ f.payload = p)
    ∧ (∀ n ∈ lanes, tb ((listening n 0x840).rd (ra (wmkP n) 0x040)) 11 = true ∧ (listening n 0x840).wmk[n].slots.length < 2)
    ∧ (let s := (listening 7 0x40).setWmk 7 (fun w => { w with slots := [{ hdr := 0, payload := [] }, { hdr := 0, payload := [] }] });
      2 ≤ s.wmk[(7 : Lane)].slots.length)
    ∧ (frontUp live = true ∧ frontUp (live.setFlag 0x002 thmShut true) = false)
    -- a request of one byte of lower memory, of 129 bytes, and of none
    ∧ (reqRange 0 0 26 1 = true ∧ [0, 0, 26, 1].length = 4 ∧ reqRange 0 0 0 129 = false ∧ reqRange 0 0 0 0 = false ∧ reqRange 0 0x8F 255 1 = true
        ∧ reqWritable 0 0 26 1 = true ∧ tb (live.rd (ra 0x000 0x050)) 0 = false)
    ∧ (∀ b ∈ [7, 8], tb ((listening 7 (0x40 + 2 ^ b)).rd (ra (wmkP 7) 0x040)) b = true ∧ tb ((listening 7 0x40).rd (ra (wmkP 7) 0x040)) b = false) :=
  ⟨by decide +kernel, by decide +kernel, by decide +kernel, by decide +kernel, by decide +kernel, by decide +kernel, by decide +kernel, short_received, by decide +kernel, by decide +kernel, by decide +kernel, by decide +kernel, by decide +kernel⟩

theorem reach_Flares :
    (3 < 4 ∧ 16 < 17)
    ∧ (∀ n ∈ lanes, live.fget lasP (lbState n) ≠ 1)
    ∧ (∀ n ∈ lanes, (laser n 1).fget lasP (lbState n) = 1 ∧ (laser n 1).flag (wmkP n) wmkHold = false ∧ (laser n 1).flag (wmkP n) flareBusy = false
        ∧ (laser n 1).wmk[n].sending = none)
    ∧ (∀ n ∈ lanes, let s := (laser n 1).setWmk n (fun w => { w with sending := some (frameOf 1), echo := true });
      s.fget lasP (lbState n) = 1 ∧ s.wmk[n].sending.isSome = true ∧ s.wmk[n].echo = true)
    ∧ (∀ n ∈ lanes, ∀ on ∈ [true, false], let s := ((laser n 1).setFlag (wmkP n) flareBusy true).setWmk n (fun w => { w with flareOn := on });
      s.flag (wmkP n) flareBusy = true ∧ s.wmk[n].flareWait = false ∧ s.wmk[n].flareOn = on)
    ∧ (∀ n ∈ lanes, let s := ((laser n 1).setFlag pwrP (pwrDusk n) true).setFlag pwrP ⟨0x05C, 0, 1⟩ true;
      s.flag pwrP (pwrDusk n) = true ∧ s.flag pwrP ⟨0x05C, 0, 1⟩ = true ∧ s.fget lasP (lbState n) = 1 ∧ s.flag (wmkP n) wmkHold = false ∧ s.flag (wmkP n) flareBusy = false)
    ∧ (∀ n ∈ lanes, live.flag pwrP (pwrDusk n) = false ∧ live.flag (wmkP n) flareBusy = false ∧ live.flag (wmkP n) wmkFlareRx = false
        ∧ live.wmk[n].lastAcc = [] ∧ live.wmk[n].lastQual = [])
    ∧ (∀ n ∈ lanes, let s := (live.setFlag (wmkP n) flareRxEn true).setWmk n (fun w => { w with vref := some (1, 1) });
      s.flag (wmkP n) flareRxEn = true ∧ s.pwr.hkOn = true ∧ s.wmk[n].vref = some (1, 1) ∧ s.flag (wmkP n) wmkFlareRx = false ∧ hkUp s 0 = true
        ∧ s.hk[(0 : Fin 2)].run = none ∧ s.wmk[n].guardOut = false)
    ∧ (∀ n ∈ lanes, (live.setFlag (wmkP n) wmkFlareRx true).flag (wmkP n) wmkFlareRx = true ∧ (live.setFlag (wmkP n) flareRxEn false).flag (wmkP n) flareRxEn = false)
    ∧ (∀ n ∈ lanes, ∀ c ∈ [0, 1, 2, 3], let s := (live.wr (ra (wmkP n) 0x090) (2 ^ (10 + c))).setWmk n (fun w => { w with lastQual := [(c, 6)] });
      tb (s.rd (ra (wmkP n) 0x090)) (10 + c) = true ∧ kget 0 s.wmk[n].lastAcc c = 0 ∧ kget 0 s.wmk[n].lastQual c = 5 + 1) :=
  by
    iterate 9 refine ⟨by decide +kernel, ?_⟩
    decide +kernel

/-! Premises: Reams, security and the NV store -/

/-- What a blow needs beside its key. -/
def fusible : State := (live.setFlag lasP lasVaux true).fset thmP thmBand 0

theorem reach_FusesAndAttestation :
    (fuseOk fusible 0xF05E = true ∧ fuseOk live 0xF05E = false ∧ fuseOk fusible 0xF05F = false ∧ fusible.flag secP cmdBusy = false)
    ∧ (fusible.sec.baseRoll ≤ fusible.sec.rollF ∧ { fusible with sec := { fusible.sec with baseRoll := 64, rollF := 63 } }.sec.rollF < 64)
    ∧ (let s := { live with sec := { live.sec with actRun := true, attWait := true } };
      s.sec.actRun = true ∧ s.sec.attWait = true ∧ live.sec.actRun = false ∧ live.sec.attWait = false)
    ∧ (∀ r ∈ [62, 63], let s := { live with sec := { live.sec with blow := some ⟨2, 0⟩, baseRoll := 64, rollF := r } };
      s.sec.blow = some ⟨2, 0⟩ ∧ max s.sec.rollF (min 64 (s.sec.rollF + 1)) = r + 1 ∧ min 64 s.sec.baseRoll = 64)
    ∧ (fusible.sec.progd.getLsbD (3 : BitVec 2).toNat = false ∧ fusible.sec.progd.getLsbD (0 : BitVec 2).toNat = true)
    ∧ (live.setFlag secP cmdBusy true).flag secP cmdBusy = true
    ∧ live.sec.blow = none
    ∧ (∀ c ∈ [2, 3, 4, 5], { live with sec := { live.sec with blow := some ⟨c, 3⟩ } }.sec.blow = some ⟨c, 3⟩)
    ∧ (live.flag secP idReadyF = false ∧ (live.setFlag secP idReadyF true).flag secP idReadyF = true)
    ∧ (live.sec.attBody = none ∧ { live with sec := { live.sec with attBody := some [1#8] } }.sec.attBody = some [1#8])
    ∧ (live.boot.ready = true ∧ live.pwr.coreOn = true ∧ State.reset.boot.ready = false) :=
  by
    iterate 10 refine ⟨by decide +kernel, ?_⟩
    decide +kernel

/-- A journal in force in slot 0, with one committed record of TYPE 0x40, KEY 1 and payload 1. -/
def journal : State :=
  let body : List Byte := bytesBE 8 (0x40 * 2 ^ 56 + 1 * 2 ^ 40 + 1 * 2 ^ 24 + 1) ++ [1#8, 0, 0, 0]
  let rec_ := body ++ bytesBE 4 (crc32 body) ++ bytesBE 4 0xC35AA53C
  let at_ (a : Nat) (l : List Byte) : KMap Byte := (List.range l.length).map (fun i => (a + i, nth 0 l i))
  { live with sec := { live.sec with flash := at_ 0x400000 (bytesBE 4 0x4E564A31 ++ bytesBE 4 1) ++ at_ 0x40001C (bytesBE 4 0x3CA55AC3) ++ at_ 0x400020 rec_ } }

/-- Bytes at an address. -/
def bytesAt (a : Nat) (l : List Byte) : KMap Byte := (List.range l.length).map (fun i => (a + i, nth 0 l i))

/-- The header of a record of TYPE 0x40, KEY 1, count 1 and the longest payload. -/
def longHdr : List Byte := bytesBE 8 (0x40 * 2 ^ 56 + 2048 * 2 ^ 40 + 1 * 2 ^ 24 + 1)

/-- An erased payload. -/
def erased : List Byte := List.replicate 2048 0xFF#8

/-- A record of both, committed or not. -/
def longRec (c : Bool) : NvRec :=
  { typ := 0x40, key := 1, cnt := 1, payload := erased, body := longHdr ++ erased ++ bytesBE 4 4094024194, committed := c }

/-- A journal in force that 31 such records fill to its end. -/
def fullFlash (c : Bool) : KMap Byte :=
  bytesAt 0x400000 (bytesBE 4 0x4E564A31 ++ bytesBE 4 1) ++ bytesAt 0x40001C (bytesBE 4 0x3CA55AC3)
    ++ (List.range 31).flatMap (fun i => bytesAt (0x400020 + 2064 * i) longHdr
      ++ bytesAt (0x400828 + 2064 * i) (bytesBE 4 4094024194 ++ if c then bytesBE 4 0xC35AA53C else []))

theorem kget_absent (m : KMap Byte) (k : Nat) (h : ∀ e ∈ m, e.1 ≠ k) : kget 0xFF#8 m k = 0xFF#8 := by
  induction m with
  | nil => rfl
  | cons e r ih =>
    obtain ⟨k', v⟩ := e
    have h1 := h (k', v) (List.mem_cons_self ..)
    simp only [kget, if_neg (Ne.symm h1), ih (fun e he => h e (List.mem_cons_of_mem _ he))]

/-- Flash that lists no byte of a range reads erased there. -/
theorem flashBytes_erased (s : State) (a n : Nat) (h : ∀ e ∈ s.sec.flash, e.1 < a ∨ a + n ≤ e.1) : flashBytes s a n = List.replicate n 0xFF := by
  refine List.ext_getElem (by simp [flashBytes]) fun i h1 h2 => ?_
  simp only [flashBytes, List.length_map, List.length_range] at h1
  simp only [flashBytes, List.getElem_map, List.getElem_range, List.getElem_replicate]
  refine kget_absent _ _ fun e he => ?_
  have := h e he
  omega

theorem flashBytes_add (s : State) (a n k : Nat) : flashBytes s a (n + k) = flashBytes s a n ++ flashBytes s (a + n) k := by
  simp only [flashBytes, List.range_add, List.map_append, List.map_map]
  congr 1
  exact List.map_congr_left fun i _ => by simp [Nat.add_assoc]

/-- The CRC register after the header and each 16 bytes of an erased payload. -/
def crcSteps : List Nat :=
  [2087838717, 3902685281, 1939610, 3900135963, 560776180, 3898555641, 603536554, 719620733, 3530271452, 4041640544, 1571437689, 2499352346, 645134868, 4028410355, 2463800480, 50131734, 4097699749, 138561521, 2662601084, 2318849559, 3120935329, 1459857850, 1550646679, 1169671158, 1255386910, 3389754579, 2983333500, 3719627425, 2630574407, 728383193, 2035483440, 1845480015, 367386888]
  ++ [1919271975, 2834994791, 2845313437, 2992126759, 484392940, 4022334335, 1347525046, 70573616, 3624556396, 1060050649, 4131875998, 2857932661, 3185702480, 2594434114, 875419718, 3869128244, 781930007, 3746829705, 3407277194, 2477337503, 4287476390, 3205217280, 3113080737, 1004144997, 1457179495, 412831513, 1273442924, 197535449, 2564643918, 3736638440, 2667416786, 2912158934, 1496562299]
  ++ [3704027385, 2538130708, 2497399132, 2372662396, 3231346730, 3779313920, 85337989, 2824060851, 2483426324, 2663533618, 2744203494, 599459643, 2834201262, 3747022489, 3127696254, 4021823722, 1394771832, 630783891, 647071963, 584816845, 4182182311, 1078267560, 680449182, 3537052039, 2698817320, 261472324, 2978678770, 1804832854, 1433965374, 1059085713, 3705406725, 1740167660, 4048969137]
  ++ [198205340, 1542912325, 974400934, 1603557275, 2236079765, 1011274437, 1686416371, 3700042557, 912272371, 4172499735, 3951549518, 823233164, 1888046227, 2911861257, 2250806960, 1188960759, 3162311767, 2356713694, 813370637, 2827784043, 690371811, 4205471785, 2489811014, 2766730531, 3915516709, 731185104, 3663320749, 3654131114, 4286136396, 200943101]

theorem crc_step : ∀ i < 128, crcBits 32 0x04C11DB7 (nth 0 crcSteps i) (byteBits (List.replicate 16 0xFF#8)) = nth 0 crcSteps (i + 1) := by decide +kernel

theorem crc_head : crcBits 32 0x04C11DB7 0xFFFFFFFF (byteBits longHdr) = nth 0 crcSteps 0 := by decide +kernel

theorem crcBits_append (c : Nat) (a b : List Byte) :
    crcBits 32 0x04C11DB7 c (byteBits (a ++ b)) = crcBits 32 0x04C11DB7 (crcBits 32 0x04C11DB7 c (byteBits a)) (byteBits b) := by
  simp only [crcBits, byteBits, List.flatMap_append, List.foldl_append]

theorem crc_erased (k : Nat) (hk : k ≤ 128) :
    crcBits 32 0x04C11DB7 (nth 0 crcSteps (128 - k)) (byteBits (List.replicate (k * 16) 0xFF#8)) = nth 0 crcSteps 128 := by
  induction k with
  | zero => simp [crcBits, byteBits]
  | succ k ih =>
    rw [Nat.succ_mul, Nat.add_comm (k * 16), ← List.replicate_append_replicate, crcBits_append, crc_step _ (by omega), show 128 - (k + 1) + 1 = 128 - k by omega]
    exact ih (by omega)

theorem longRec_crc : crc32 (longHdr ++ erased) = 4094024194 := by
  have h := crc_erased 128 (Nat.le_refl _)
  simp only [Nat.sub_self, Nat.reduceMul] at h
  rw [crc32, crcBits_append, crc_head, erased, h]
  decide +kernel

/-- What lies at the place of each record. -/
theorem full_places : ∀ c : Bool, ∀ i < 31,
    (∀ e ∈ fullFlash c, e.1 < 0x400028 + 2064 * i ∨ 0x400028 + 2064 * i + 2048 ≤ e.1)
      ∧ (List.range 8).map (fun j => kget 0xFF#8 (fullFlash c) (0x400020 + 2064 * i + j)) = longHdr
      ∧ (List.range 8).map (fun j => kget 0xFF#8 (fullFlash c) (0x400828 + 2064 * i + j)) = bytesBE 4 4094024194 ++ (if c then bytesBE 4 0xC35AA53C else bytesBE 4 0xFFFFFFFF) := by
  decide +kernel

theorem full_end : ∀ c : Bool, ∀ j < 8, kget 0xFF#8 (fullFlash c) (0x400000 + 64016 + j) = 0xFF#8 := by decide +kernel

theorem full_scan (c : Bool) (s : State) (hs : s.sec.flash = fullFlash c) (f k : Nat) (hk : k ≤ 31) :
    nvScan s 0 (f + 1 + k) (32 + 2064 * (31 - k)) = (List.replicate k (longRec c), 64016) := by
  induction k with
  | zero =>
    have : flashBytes s (nvBase 0 + 64016) 8 = List.replicate 8 0xFF := by
      refine List.ext_getElem (by simp [flashBytes]) fun i h1 h2 => ?_
      simp only [flashBytes, List.length_map, List.length_range] at h1
      simp only [flashBytes, flashByte, hs, List.getElem_map, List.getElem_range, List.getElem_replicate]
      exact full_end c i h1
    have hp : bits (ofBE (List.replicate 8 0xFF)) 40 16 = 65535 := by decide +kernel
    simp only [nvScan, Nat.sub_zero, Nat.reduceMul, Nat.reduceAdd, this, hp]
    rfl
  | succ k ih =>
    have h := full_places c (30 - k) (by omega)
    have e : 31 - (k + 1) = 30 - k := by omega
    have e' : 32 + 2064 * (30 - k) + 2064 = 32 + 2064 * (31 - k) := by omega
    have hh : flashBytes s (nvBase 0 + (32 + 2064 * (30 - k))) 8 = longHdr := by
      rw [← h.2.1]; simp only [flashBytes, flashByte, hs, nvBase]
      exact List.map_congr_left fun j _ => congrArg (kget 0xFF#8 (fullFlash c)) (by omega)
    have hr : flashBytes s (nvBase 0 + (32 + 2064 * (30 - k))) 2056 = longHdr ++ erased := by
      refine (flashBytes_add s _ 8 2048).trans ?_
      rw [hh]
      refine congrArg (fun l => longHdr ++ l) ?_
      refine flashBytes_erased s _ _ fun x hx => ?_
      rw [hs] at hx
      have := h.1 x hx
      simp only [nvBase]; omega
    have hc : flashBytes s (nvBase 0 + (32 + 2064 * (30 - k)) + 2056) 8 = bytesBE 4 4094024194 ++ (if c then bytesBE 4 0xC35AA53C else bytesBE 4 0xFFFFFFFF) := by
      rw [← h.2.2]; simp only [flashBytes, flashByte, hs, nvBase]
      exact List.map_congr_left fun j _ => congrArg (kget 0xFF#8 (fullFlash c)) (by omega)
    have four (a : Nat) : (flashBytes s a 4).length = 4 := by simp [flashBytes]
    have fa := flashBytes_add s (nvBase 0 + (32 + 2064 * (30 - k)) + 2056) 4 4
    rw [show 4 + 4 = 8 from rfl, hc] at fa
    have hc := List.append_inj fa.symm (by rw [four]; decide +kernel)
    have hl : bits (ofBE longHdr) 40 16 = 2048 := by decide +kernel
    rw [show f + 1 + (k + 1) = (f + 1 + k) + 1 from rfl, e]
    simp only [nvScan, hh, hl]
    rw [if_neg (by simp only [recBytes, pad4]; omega)]
    have p1 : 8 + pad4 2048 = 2056 := rfl
    have p2 (x : Nat) : x + 8 + pad4 2048 = x + 2056 := rfl
    have p4 : recBytes 2048 = 2064 := rfl
    simp only [p1, p2, p4, hr, hc.1, hc.2]
    rw [e', ih (by omega), longRec_crc]
    have q : ofBE (bytesBE 4 4094024194) = 4094024194 := by decide +kernel
    have q' : ofBE (if c then bytesBE 4 0xC35AA53C else bytesBE 4 0xFFFFFFFF) = if c then 0xC35AA53C else 0xFFFFFFFF := by cases c <;> decide +kernel
    have t : (longHdr ++ erased).drop 8 = erased := List.drop_left' (by decide +kernel)
    have t' : erased.take 2048 = erased := List.take_of_length_le (Nat.le_of_eq (by rw [erased, List.length_replicate]))
    have w : bits (ofBE longHdr) 56 8 = 0x40 ∧ bits (ofBE longHdr) 24 16 = 1 ∧ bits (ofBE longHdr) 0 24 = 1 := by decide +kernel
    simp only [q, q', t, t', w.1, w.2.1, w.2.2, List.replicate_succ, longRec, beq_self_eq_true, Bool.true_and]
    cases c <;> simp

theorem holdingIn_alike (r : NvRec) (h : r.committed = true) (k : Nat) : holdingIn (List.replicate (k + 1) r) r.typ r.key = some r := by
  have a : (List.replicate (k + 1) r).filter (fun x => x.committed && x.typ == r.typ && x.key == r.key) = List.replicate (k + 1) r := by
    refine List.filter_eq_self.2 fun x hx => ?_
    rw [List.eq_of_mem_replicate hx]; simp [h]
  rw [holdingIn, a]
  induction k with
  | zero => rfl
  | succ k ih =>
    rw [List.replicate_succ', List.foldl_append, ih ?_]
    · simp
    · refine List.filter_eq_self.2 fun x hx => ?_
      rw [List.eq_of_mem_replicate hx]; simp [h]

theorem holdingIn_none (l : List NvRec) (h : ∀ r ∈ l, r.committed = false) (typ key : Nat) : holdingIn l typ key = none := by
  have a : l.filter (fun x => x.committed && x.typ == typ && x.key == key) = [] := by
    refine List.filter_eq_nil_iff.2 fun x hx => ?_
    simp [h x hx]
  rw [holdingIn, a]; rfl

/-- A device whose journal is full of records, committed or not. -/
def fullOf (c : Bool) (s : State) : State := { s with sec := { s.sec with flash := fullFlash c } }

theorem full_records (c : Bool) (s : State) (hj : nvInForce (fullOf c s) = some 0) : nvRecords (fullOf c s) = (List.replicate 31 (longRec c), 64016) := by
  have := full_scan c (fullOf c s) rfl 4064 31 (Nat.le_refl _)
  simpa only [nvRecords, hj] using this

theorem full_kept (c : Bool) (s : State) (hj : nvInForce (fullOf c s) = some 0) :
    (nvHoldings (nvRecords (fullOf c s)).1).foldl (fun n r => n + r.body.length + 4) 32 = if c then 64016 else 32 := by
  rw [full_records c s hj]
  have hb (k n : Nat) : (List.replicate k (longRec true)).foldl (fun n r => n + r.body.length + 4) n = n + k * 2064 := by
    have hl : (longRec true).body.length = 2060 := by
      rw [longRec, List.length_append, List.length_append, erased, List.length_replicate]; decide +kernel
    induction k generalizing n with
    | zero => simp
    | succ k ih => rw [List.replicate_succ, List.foldl_cons, ih, hl]; omega
  cases c with
  | true =>
    have : nvHoldings (List.replicate 31 (longRec true)) = List.replicate 31 (longRec true) := by
      refine List.filter_eq_self.2 fun x hx => ?_
      rw [List.eq_of_mem_replicate hx, holdingIn_alike _ rfl 30]; exact beq_self_eq_true _
    rw [this, hb]; rfl
  | false =>
    have : nvHoldings (List.replicate 31 (longRec false)) = [] := by
      refine List.filter_eq_nil_iff.2 fun x hx => ?_
      rw [holdingIn_none _ (fun r hr => by rw [List.eq_of_mem_replicate hr]; rfl)]; simp
    rw [this]; rfl

theorem reach_DownloadCommands :
    (live.sec.progSlot = none ∧ live.sec.actRun = false ∧ live.pwr.coreOn = true ∧ flipActs live 0 = false)
    ∧ State.reset.pwr.coreOn = false
    ∧ ((live.setFlag secP cmdBusy true).flag secP cmdBusy = true ∧ live.flag secP cmdBusy = false)
    ∧ (live.sec.verified = none ∧ 2 ≤ (2 : BitVec 2).toNat ∧ (1 : BitVec 2).toNat < 2)
    ∧ (let s := { live.fset secP bootSlot 0 with sec := { live.sec with verified := some 1 } };
      s.flag secP cmdBusy = false ∧ s.pwr.coreOn = true ∧ s.sec.verified.isSome = true ∧ s.fget secP bootSlot ≠ (1 : BitVec 2).toNat
        ∧ s.fget secP bootSlot = (0 : BitVec 2).toNat ∧ s.sec.verified = some 1 ∧ s.fget pwrP pwrState = 0)
    ∧ ((inState 2).fget pwrP pwrState ≠ 0)
    ∧ ({ live with sec := { live.sec with progSlot := some 1 } }.sec.progSlot = some 1 ∧ live.nv.hold = false ∧ { live with nv := { live.nv with hold := true } }.nv.hold = true)
    ∧ (let s := { live with sec := { live.sec with actRun := true, attWait := true } };
      s.sec.actRun = true ∧ s.sec.attWait = true ∧ live.sec.attWait = false)
    ∧ (nvInForce journal = some 0 ∧ (nvRecords journal).2 + recBytes 6 ≤ 0x10000 ∧ journal.nv.compact = 0 ∧ journal.nv.hold = false
        ∧ { journal with nv := { journal.nv with compact := 1 } }.nv.compact ≠ 0) :=
  by
    iterate 8 refine ⟨by decide +kernel, ?_⟩
    decide +kernel

theorem reach_NvRecords :
    (let s := live.setFlag nvsP recBusy true;
      s.flag nvsP recBusy = true ∧ live.flag nvsP recBusy = false)
    ∧ (∀ y ∈ [1, 3, 6, 0x3F], (recSel (live.wr (ra nvsP 0x048) y)).1 = y)
    ∧ nvInForce live = none
    ∧ (let s := (journal.wr (ra nvsP 0x048) 0x140).fset nvsP ⟨0x04C, 0, 12⟩ 2048;
      recSel s = (0x40, 1) ∧ (nvInForce s).isSome = true ∧ (nvRecords s).2 + recBytes (clampN 1 2048 (s.fget nvsP ⟨0x04C, 0, 12⟩)) ≤ 0x10000
        ∧ s.nv.compact = 0 ∧ s.nv.hold = false ∧ (nvHolding s 0x40 1).map (fun r => r.payload) = some [1#8] ∧ nvHolding s 0x41 1 = none)
    ∧ (let s := { live with nv := { live.nv with recent := [5], bbLast := some 0 } };
      s.time.dtc.toNat / 65536 < 0 + 156250000 * (s.fset nvsP ⟨0x070, 0, 16⟩ 1).fget nvsP ⟨0x070, 0, 16⟩)
    ∧ (live.shut = false ∧ live.nv.recent = [] ∧ (live.setFlag 0x002 thmShut true).shut = true)
    ∧ (let s := { journal with nv := { live.nv with recent := [5] } };
      s.nv.bbLast = none ∧ s.shut = false ∧ s.nv.recent ≠ [] ∧ (nvInForce s).isSome = true ∧ (nvRecords s).2 + recBytes (8 * s.nv.recent.length) ≤ 0x10000
        ∧ s.nv.compact = 0 ∧ s.nv.hold = false)
    ∧ (live.nv.wait = [] ∧ live.nv.compact ≠ 2 ∧ 2 ≤ (inState 2).fget 0x001 ⟨0x058, 0, 2⟩ ∧ live.fget 0x001 ⟨0x058, 0, 2⟩ < 2 ∧ live.nv.hold = false)
    ∧ (∀ y ∈ [0x40, 1, 3, 6], let s := { journal with nv := { journal.nv with wait := [(y, 3, 0x40002C)], compact := 1 } };
      s.nv.wait = (y, 3, 0x40002C) :: [] ∧ s.nv.compact = 1 ∧ nvInForce s = some 0 ∧ nvBase 0 + 32 ≤ 0x40002C ∧ 0x40002C + 4 ≤ nvBase 0 + 0x10000)
    ∧ (let s := { journal with nv := { journal.nv with compact := 2 } };
      s.nv.wait = [] ∧ s.nv.compact = 2 ∧ s.fget 0x001 ⟨0x058, 0, 2⟩ < 2 ∧ s.nv.hold = false ∧ nvInForce s = some 0 ∧ nvGen s 0 + 1 < 2 ^ 32 ∧ s.nv.queue = []) :=
  by
    iterate 9 refine ⟨by decide +kernel, ?_⟩
    decide +kernel

/-- A record that does not fit, where the holding records leave room and where they do not. -/
theorem reach_NvRecords_full : ∀ c : Bool, let s := fullOf c ((live.wr (ra nvsP 0x048) 0x240).fset nvsP ⟨0x04C, 0, 12⟩ 2048)
    (s.flag nvsP recBusy = false ∧ recSel s = (0x40, 2) ∧ (nvInForce s).isSome = true ∧ s.nv.compact = 0 ∧ s.nv.hold = false ∧ s.nv.wait = [])
      ∧ ¬ (nvRecords s).2 + recBytes (clampN 1 2048 (s.fget nvsP ⟨0x04C, 0, 12⟩)) ≤ 0x10000
      ∧ (c = true → 61440 < (nvHoldings (nvRecords s).1).foldl (fun n r => n + r.body.length + 4) 32)
      ∧ (c = false → (nvHoldings (nvRecords s).1).foldl (fun n r => n + r.body.length + 4) 32 ≤ 61440) := by
  have hj : ∀ c : Bool, nvInForce (fullOf c ((live.wr (ra nvsP 0x048) 0x240).fset nvsP ⟨0x04C, 0, 12⟩ 2048)) = some 0 := by decide +kernel
  intro c s
  refine ⟨by clear hj; revert c; decide +kernel, ?_, ?_, ?_⟩
  · rw [full_records c _ (hj c)]; clear hj; revert c; decide +kernel
  · rintro rfl; rw [full_kept true _ (hj true)]; decide
  · rintro rfl; rw [full_kept false _ (hj false)]; decide
/-! Premises: start-up, ports and registers -/

theorem reach_ResetsAndBringUp :
    (live.shut = false ∧ live.pwr.por = false ∧ State.reset.pwr.por = true ∧ (live.setFlag 0x002 thmShut true).shut = true)
    ∧ (({ railBad := 8 } : BootEnv).railBad ≠ 0 ∧ ({} : BootEnv).railBad = 0)
    ∧ (live.boot.waiting = none ∧ { live with boot := { live.boot with waiting := some {} } }.boot.waiting = some {})
    ∧ (1999 < 2000 ∧ 2000 ≥ 2000)
    ∧ (tb ((live.wr (ra 0x000 0x050) 1).rd (ra 0x000 0x050)) 0 = true ∧ tb (live.rd (ra 0x000 0x050)) 0 = false ∧ (0xC0DF : BitVec 16) ≠ 0xC0DE)
    ∧ (live.boot.ready = true ∧ live.pwr.coreOn = true ∧ State.reset.boot.ready = false)
    ∧ (live.mgmt.allowed = true ∧ live.fget pwrP pwrState = 0)
    ∧ (let s := { live.fset secP bootSlot 0 with mgmt := { live.mgmt with allowed := false } };
      s.mgmt.allowed = false ∧ s.boot.ready = true ∧ moduleFault s = false ∧ s.fget pwrP pwrState = 0) :=
  by
    iterate 7 refine ⟨by decide +kernel, ?_⟩
    decide +kernel

theorem reach_RegisterAccesses :
    (gateCause State.reset 0x02F 0x040 = some 1 ∨ (gateCause State.reset 0x02F 0x040).isSome = true)
    ∧ (gateCause live 0x02F 0x23C = none ∧ standaloneBars (live.wr (ra 0x000 0x050) 1) .spi (ra 0x02F 0x23C) = true ∧ gateCause (live.wr (ra 0x000 0x050) 1) 0x02F 0x23C = none)
    ∧ (let s := live.setFlag 0x02F pgCtrlEn false;
      gateCause s 0x02F 0x040 = none ∧ standaloneBars s .twoWire (ra 0x02F 0x040) = false ∧ (pageOf 0x02F).isSome = true ∧ 0x040 ≤ 0x040 ∧ s.flag 0x02F pgCtrlEn = false)
    ∧ (pageOf 0x04F = some (.hrx, 15) ∧ live.flag 0x04F pgCtrlEn = true ∧ 0x240 ≤ 0x240
        ∧ (rowAt .hrx (0x240 - twin)).map (fun x => decide (x.1.rws ≠ 0)) = some true ∧ inPress live 0x04F = false
        ∧ inPress { live with presses := [waits 0x04F []] } 0x04F = true ∧ gateCause live 0x04F 0x240 = none)
    ∧ (∀ x ∈ [(Kind.mgt, 0x006, 0x040), (.clk, 0x007, 0x044), (.xbar, 0x008, 0x040), (.trc, 0x00A, 0x040), (.lrx, 0x027, 0x048), (.lfm, 0x037, 0x044), (.hrx, 0x04F, 0x050),
          (.htx, 0x05F, 0x044)], (pageOf x.2.1).map (fun y => y.1) = some x.1 ∧ 0x040 ≤ x.2.2 ∧ x.2.2 < 0x240 ∧ (rowAt x.1 x.2.2).isSome = true
        ∧ gateCause live x.2.1 x.2.2 = none ∧ live.flag x.2.1 pgCtrlEn = true)
    -- GRAD_EN written 0
    ∧ (∀ x ∈ [(Kind.lrx, 0x027, 0x058), (.hrx, 0x04F, 0x05C)], (pageOf x.2.1).map (fun y => y.1) = some x.1 ∧ (rowAt x.1 x.2.2).isSome = true
        ∧ gateCause live x.2.1 x.2.2 = none ∧ live.flag x.2.1 pgCtrlEn = true ∧ (0 : Word).getLsbD 5 = false)
    -- a word of an engine's memory that is sound, and one that is not
    ∧ (let s := live.wr (ra (engP 4) 0x04C) 0x5FFF;
      let w := s.rd (ra (engP 4) 0x04C);
      flipActs s 4 = false ∧ tb w 14 = true ∧ bits w 0 13 = 8191 ∧ ∀ i < 3, eccOf (s.chkErr (engWord 4 (tb w 13) (bits w 0 13) + i)) = .ok)
    ∧ (let s := { live with chk := [(engWord 0 false 0, 0b00011)] };
      let w := s.rd (ra (engP 0) 0x04C);
      flipActs s 4 = false ∧ s.isUe (engWord 0 (tb w 13) (bits w 0 13)) 3 = true) :=
  by
    iterate 7 refine ⟨by decide +kernel, ?_⟩
    decide +kernel

/-- The two-wire port on vendor page 0x8F, PEC off or on. -/
def port (pec : Nat) : State := cmisPut 127 0x8F (live.wr (ra 0x006 0x040) pec)

theorem reach_TwoWireTransactions :
    (acked true 0x50 live = false ∧ acked false 0x51 live = false ∧ acked false 0x50 live = true)
    ∧ (acked false 0x50 (port 1) = true ∧ pecEn (port 1) = true ∧ pecOf (2 * 0x50 :: [(0x7F : Byte)].map (fun b => b.toNat)) ≠ pecOf [2 * 0x50, 0x7E])
    ∧ (pecEn (port 0) = false ∧ acked false 0x50 (port 0) = true ∧ (port 0).flag mgtP mgtI3c = false)
    ∧ (∀ o ∈ [(128 : Byte), 252], inWindow (port 0) o.toNat = true ∧ o.toNat % 4 = 0)
    ∧ (inWindow (port 0) (254 : Byte).toNat = true ∧ (254 : Byte).toNat % 4 < 3)
    ∧ ((port 0).mgmt.released = true ∧ State.reset.mgmt.released = false)
    -- bytes outside the window, and the byte of the software reset
    ∧ (∀ o ∈ [(0 : Byte), 26, 127], inWindow (port 0) o.toNat = false ∧ (0 : Byte).getLsbD 3 = false)
    ∧ (∀ o ∈ [(128 : Byte), 252], windowByte (port 0) o.toNat ≠ rstCtrl)
    -- the current offset, an I3C target that reads a word that is not ready, and a read with PEC
    ∧ ({ port 0 with mgmt := { (port 0).mgmt with ptr := 255 } }.mgmt.ptr = (255 : Byte).toNat)
    ∧ (let s := ((port 0).setFlag mgtP mgtI3c true).fset mgtP mgtDyn 0x7F;
      acked false 0x7F s = true ∧ pecEn s = false ∧ s.flag mgtP mgtI3c = true ∧ inWindow s (128 : Byte).toNat = true)
    ∧ (let s := cmisPut 127 0x8F (live.wr (ra 0x006 0x040) 0x101);
      acked false 0x50 s = true ∧ pecEn s = true ∧ pecRdlen s = 1)
    -- what MODSEL_N ends with PEC on
    ∧ ((port 1).mgmt.released = true ∧ inWindow (port 1) (128 : Byte).toNat = true ∧ inWindow (port 1) (127 : Byte).toNat = false) :=
  by
    iterate 11 refine ⟨by decide +kernel, ?_⟩
    decide +kernel

theorem reach_CccAndSpi :
    (live.mgmt.released = true ∧ live.flag mgtP mgtI3c = false)
    ∧ (State.reset.mgmt.released = false ∧ (0x51 : BitVec 7) ≠ 0x50)
    ∧ (let s := (live.setFlag mgtP mgtI3c true).fset mgtP mgtDyn 0x7F;
      s.mgmt.released = true ∧ s.flag mgtP mgtI3c = true ∧ cccHit (0x7F : BitVec 7).toNat s = true ∧ cccHit (0 : BitVec 7).toNat s = false)
    ∧ (live.boot.ready = true ∧ State.reset.boot.ready = false)
    ∧ (∀ x ∈ [(Kind.thm, 0x002, 0x040), (.mgt, 0x006, 0x048), (.clk, 0x007, 0x044), (.xbar, 0x008, 0x040), (.trc, 0x00A, 0x040), (.lfm, 0x037, 0x044), (.htx, 0x05F, 0x044)],
      let a := (BitVec.ofNat 24 (ra x.2.1 x.2.2 + 3)).toNat / 4 * 4 % 2 ^ 22;
      gateCause live (a / 1024) (a % 1024) = none ∧ (pageOf (a / 1024)).map (fun y => y.1) = some x.1 ∧ 0x040 ≤ a % 1024 ∧ a % 1024 < 0x240
        ∧ (rowAt x.1 (a % 1024)).isSome = true) :=
  by
    iterate 4 refine ⟨by decide +kernel, ?_⟩
    decide +kernel

/-- The path of lane 7 as it stands. -/
def pathOf (lfm : Word) : List DataPath := [{ lane := 7, map := 0x4FE, lfm := lfm, hrx := [], htx := [], explicit := false }]

theorem reach_CmisApply :
    (live.shut = false ∧ frontUp live = true ∧ tb (live.rd (ra 0x000 0x050)) 0 = false)
    ∧ frontUp State.reset = false
    ∧ ((pathOf 0x7E0).all (onlySi live) = true ∧ (pathOf 0x7F0).all (onlySi live) = false)
    ∧ (let s := { live with presses := [waits 0x037 []] };
      (pathPages (pathOf 0x7F0)).find? (inPress (siApply (pathOf 0x7F0) (each (pathOf 0x7F0) stagePath (cfgStatus (pathHosts (pathOf 0x7F0)) 12 s)))) = some 0x037)
    ∧ (let paths := pathOf 0x7F0;
      let staged := siApply paths (each paths stagePath (cfgStatus (pathHosts paths) 12 roomy));
      let parkedAll := each ((pathPages paths).filter (fun p => !staged.parked p)) becomeParked staged;
      (pathPages paths).find? (inPress staged) = none ∧ pressCheck parkedAll (pathPages paths) = none ∧ paceFail parkedAll (pathPages paths) = none
        ∧ roomy.presses = [])
    -- a map outside the lane's own pair, which fails a check
    ∧ (let paths : List DataPath := [{ lane := 7, map := 0x400, lfm := 0x7F0, hrx := [], htx := [], explicit := true }];
      let staged := siApply paths (each paths stagePath (cfgStatus (pathHosts paths) 12 roomy));
      let parkedAll := each ((pathPages paths).filter (fun p => !staged.parked p)) becomeParked staged;
      (pathPages paths).find? (inPress staged) = none ∧ (pressCheck parkedAll (pathPages paths)).isSome = true) :=
  by
    iterate 5 refine ⟨by decide +kernel, ?_⟩
    decide +kernel

/-! Premises: the whole machine -/

theorem reach_EveryStepCompletes : { live with pending := [.snapDone] }.pending = .snapDone :: [] ∧ live.pending = [] := by decide +kernel

theorem reach_ResetValues : (pageOf 0x02F).isSome = true ∧ 0x02F < 128 := by decide +kernel

theorem reach_MemoryStaysCanonical :
    let s := { live with pending := [.snapDone], mem := [(174 * 65536, 1)], chk := [(174 * 65536, 3)] }
    Memory.wf s.mem ∧ Checks.wf s.chk ∧ (match step s with | .next _ => true | _ => false) = true :=
  ⟨by decide +kernel, by decide +kernel, by decide +kernel⟩

theorem reach_FusesAreOneWay :
    let s := { fusible with pending := [.fuseBlowDone true], sec := { fusible.sec with blow := some ⟨3, 3⟩ } }
    (match step s with | .next t => t.sec.progd == 0b1001 | _ => false) = true := by decide +kernel

/-! The spec's worked examples -/

/-- The header of the example after R45: 0x0A86_0241 and its sixteen levels. -/
theorem test_header_example :
    let h : Header := { jc := JC.nominal.code, mfc := 0x2A, laneId := 3, rate := 0, parked := false, empty := false, rdi := false, wmkOn := true, subPrev := false }
    h.word = 0x0A860241 ∧ headerLevels h.word = [0, 0, 3, 3, 3, 0, 1, 3, 0, 0, 0, 3, 1, 0, 0, 1] := by decide +kernel

/-- CRC-8 of the three header bytes, byte by byte: 0x36, 0x19, 0x41 (example after R45). -/
theorem test_crc8_example : crc8 [0x0A] = 0x36 ∧ crc8 [0x0A, 0x86] = 0x19 ∧ crc8 [0x0A, 0x86, 0x02] = 0x41 := by decide +kernel

/-- CRC-16 and CRC-32 of R278 over the digits 1 to 9: the published check values of the two polynomials. -/
theorem test_crc_check_values :
    crcBits 16 0x1021 0xFFFF (byteBits [0x31, 0x32, 0x33, 0x34, 0x35, 0x36, 0x37, 0x38, 0x39]) = 0x29B1
      ∧ crc32 [0x31, 0x32, 0x33, 0x34, 0x35, 0x36, 0x37, 0x38, 0x39] = 0xFC891918 := by decide +kernel

/-- The first PLUS frame of a fill of 452 bits, NOMINAL from 398 (example after R56). -/
theorem test_just_example : justChoice 452 = .plus ∧ justChoice 398 = .nominal ∧ justChoice 448 = .plus ∧ justChoice 320 = .minus := by decide

/-- f_k = 384 and d_k = 25 (example after R114). -/
theorem test_dac_example :
    ffeSum [0, -16, 336, -32, 0, 0, 0] [none, some 3, some 2, some 0, none, none, none] = 384 ∧ dacCode (384 + 32 - 12) = (25, false)
      ∧ nlAddr (some 0) (some 2) (some 3) = 11 ∧ [0, 1, 2, 3].map (fun l => (dacCode (336 * vLevel l)).1) = [-63, -21, 21, 63] := by decide +kernel

/-- The expected sample of the branch example (R82): −50 + 77/256 × 150, in 1/256. -/
theorem test_branch_example :
    expected { ffe := [], dfe := [], lvl := [-150, -50, 50, 150], h1 := 77, main := 0, dfeOn := true } 1 3 = -1250 := by decide +kernel

/-- The window of the example after R101: SER_PRE 370 and BER_POST 645. -/
theorem test_rates_example : decades 3355 (2 ^ 24) = 370 ∧ decades 12 (2 ^ 25) = 645 := by decide +kernel

/-- The check bits of 0xA5 are 0b00011; with d3 inverted the syndrome is 7 and the parity odd, and the byte is corrected (example after R300). -/
theorem test_check_bits_example :
    checkBits 0xA5 = 0b00011 ∧ (checkBits 0xA5 ^^^ checkBits 0xAD) % 16 = 7 ∧ eccOf (BitVec.ofNat 5 (checkBits 0xA5 ^^^ checkBits 0xAD)) = .ce
      ∧ corrected 0xAD (BitVec.ofNat 5 (checkBits 0xA5 ^^^ checkBits 0xAD)) = 0xA5 := by decide +kernel

/-- PTR of a circular buffer with BASE 0x1200 and LEN 17 (example after R181). -/
theorem test_post_modify_example :
    ∀ x ∈ [((0x1210 : BitVec 13), (1 : BitVec 13), 1, (0x1200 : BitVec 13)), (0x1201, -3, 3, 0x120F), (0x1300, 1, 1, 0x1301)],
      let s := live.setEng 4 (fun g => { g with ag := g.ag.set (3 : Fin 8) { ptr := x.1, base := 0x1200, len := 17, md := x.2.1 } });
      (postMod 4 3 x.2.2.1 none s).eng[(4 : Eng)].ag[(3 : Fin 8)].ptr = x.2.2.2 := by decide +kernel

/-- PG_ID of LRX3 over SPI: 0x0020_0301, highest byte first (chapter 20, R370). -/
theorem test_pg_id_example :
    ends (.spiRead 0x008C00 [0]) live (fun t => t.mgmt.out == [0x5A, 0x00, 0x20, 0x03, 0x01]) = true := by decide +kernel

/-- HTX12.HTX_AMP resets to 0x10 and is at 0x01_7044 over SPI, and in bank 46, page 80h, byte 0xC4 over the two-wire port (chapter 20). -/
theorem test_every_route_example :
    ends (.spiRead 0x017044 [0]) live (fun t => t.mgmt.out == [0x5A, 0, 0, 0, 0x10]) = true
    ∧ ends (.i2cReadTransaction false 0x50 (some 0xC4) 4 0) (cmisPut 127 0x80 (cmisPut 126 46 live)) (fun t => t.mgmt.out == [0x10, 0, 0, 0]) = true
    ∧ windowByte (cmisPut 127 0x84 (cmisPut 126 46 live)) 0xC0 = 0x17240 := by decide +kernel

/-- The LRX_MODE twin of LRX5 written over I2C (worked example of chapter 15): bytes 0xC0 to 0xC3 of bank 0x12, page 0x8C. -/
theorem test_twin_example :
    ends (.i2cWriteTransaction false 0x50 [0xC0, 0x6C, 0x01, 0x00, 0x00]) (cmisPut 127 0x8C (cmisPut 126 0x12 live))
      (fun t => t.rd 0x009640 == 0x16C && t.rd (ra 0x025 0x040) == live.rd (ra 0x025 0x040)) = true := by decide +kernel

/-- The press of that example: LRX5, parked, goes through at its boundary with event 0, DETAIL 0x25, and PRESS_STAT reads 0x0101. -/
theorem test_press_example :
    let s := (((lane 5 (fun l => { l with rxFirst := true })).fset 0x025 pgPark 2).wr 0x009640 0x16C)
    ends (.press 0x025) s (fun t => ends (.pressApply 5 true) t (fun u =>
      raised 0 0x25 u && u.rd (ra 0x025 0x020) == 0x101 && u.rd (ra 0x025 0x040) == 0x16C)) = true := by decide +kernel

/-- The entries of the loss-of-light example of chapter 16. -/
theorem test_log_entry_example :
    logEntry 0x1A2B 201 0 (0x3E80 * 160) = 0x00001A2B64803E80 ∧ logEntry 0x1A2C 348 2 (0x3E80 * 160) = 0x00001A2CAE023E80
      ∧ logEntry 0x1A2D 354 2 (0x3E80 * 160 + 159) = 0x00001A2DB1023E80 ∧ logEntry 0x1A2E 217 0 (0x3E81 * 160) = 0x00001A2E6C803E81
      ∧ logEntry 0x1A2F 200 0 ((0x3E80 + 5761) * 160) = 0x00001A2F64005501 := by decide +kernel

/-- Loss of signal on line lane 2 is event 217, and it takes the framer out of SYNC with event 201; host lane 12's is event 392 (chapters 2, 3, 5). -/
theorem test_los_examples :
    ends (.losAssert 2) (lane 2 (fun l => { l with fig := { l.fig with below := 64 } })) (fun t => raised 217 0 t && t.evt.stat.getLsbD 201) = true
    ∧ ends (.hrxLosAssert 12) (live.setHost 12 (fun l => { l with fig := { l.fig with below := 64 } })) (fun t => raised 392 0 t) = true := by decide +kernel

/-- A compliance fault on line lane 2 is event 209; a late token in the receive direction of lane 5 is event 271 with DETAIL 1 (chapter 4). -/
theorem test_comply_and_late_examples :
    ends (.ltxComply 2 true false true) ((live.setLane 2 (fun l => { l with modeNamed := true })).fset (ltxP 2) ltxOut 2) (fun t => raised 209 5 t) = true
    ∧ ends (.lateToken 5 true 0) live (fun t => raised 271 1 t) = true := by decide +kernel

/-- Holdover begins in the receive direction of line lane 5: event 18 with DETAIL 0x0D (chapter 6). -/
theorem test_holdover_example :
    ends (.cdrUnlock 5) (live.setLane 5 (fun l => { l with goodRx := true })) (fun t => raised 18 0x0D t) = true := by decide +kernel

/-- A watchdog abort on ENG2 is event 144 with DETAIL 2; a reserved opcode met on ENG1 is event 145 with DETAIL 0x09 (chapter 7). -/
theorem test_engine_fault_examples :
    ends (.engWdog 2) ((engine 2 0 0 []).setEng 2 (fun g => { g with steps := 65536 })) (fun t => raised 144 2 t) = true
    ∧ ends (.stepAdd 1) (engine 1 0 (0x15 * 2 ^ 58) []) (fun t => raised 145 0x09 t) = true := by decide +kernel

/-- A second slice failure found by foreground calibration on line lane 6 is event 25 with DETAIL 0x06; a slice retired on lane 7 is event 318 (chapters 3 and 8). -/
theorem test_slice_examples :
    ends (.foregroundCalDone 6 (List.replicate 65 0) [3, 9] (List.replicate 65 6000) [] 0) (foreground 6) (fun t => raised 25 0x06 t) = true
    ∧ ends (.foregroundCalDone 7 (List.replicate 65 0) [3] (List.replicate 65 6000) [] 0) (foreground 7) (fun t => raised 318 3 t && !t.evt.stat.getLsbD 25) = true := by
  decide +kernel

/-- A keep timeout on laser 3 is event 451 with DETAIL 4, and the laser is dark (chapter 9). -/
theorem test_keep_timeout_example :
    ends (.keepTimeout 3 false) (laser 3 1) (fun t => raised 451 4 t && lbOut t 3 == 0) = true := by decide +kernel

/-- A QUIET flare accepted on line lane 5 is event 438 with DETAIL 2 (chapter 11). -/
theorem test_quiet_example :
    raised 438 2 (flareQualified 5 2 (5 + 7812500) ((live.wr (ra (wmkP 5) 0x090) 0x1000).setWmk 5 (fun w => { w with lastQual := [(2, 6)] }))) = true := by
  decide +kernel

/-- The scrubber finds an uncorrectable step in SHTM and logs it in UE_LOG_02: event 64 with DETAIL 0x13 (chapter 12). -/
theorem test_scrub_example :
    let s := { (live.wr (ueLog 0) 0xC00000).wr (ueLog 1) 0xC00001 with chk := [(160 * 65536, 0b00011)] }
    ends (.scrubLine 3 [] false) s (fun t => raised 64 0x13 t && t.byte (160 * 65536) == 0) = true := by decide +kernel

/-- A wake by signal detect on line lane 3 is event 33 with DETAIL 0x34 (chapter 13). -/
theorem test_wake_example :
    ends (.lpSignalDetect 3) (inState 2) (fun t => ends (.wakeDone []) t (fun u => raised 33 0x34 u)) = true := by decide +kernel

/-- The margins of the governor example: C_CONF 486.0 M against 440.98 M is above the WARM floor of 10 %, with lane 7's droop below it, and lowering to 0.645 V is refused (R339, R340). -/
theorem test_pace_example :
    let s := live.fset pwrP paceFloor 100
    marginOk s 486000000 1 (laneRate s 7) = true
    ∧ marginOk s (486000000 * (1000000 - 20 * 352784 / 1000)) 1000000 (laneRate s 7) = false
    ∧ marginOk s (486000000 * cap10 9) (cap10 10) (laneRate s 7) = false ∧ cap10 9 = 4230 ∧ cap10 10 = 4300
    ∧ marginOk s (499000000 * 992944) 1000000 (laneRate s 7) = true := by decide +kernel

/-- A group press of XBAR and LFM7 refused for pace raises event 1 with DETAIL 5 beside event 36 with DETAIL 7 (chapter 15). -/
theorem test_pace_press_example :
    let s := (List.range 7).foldl (fun (s : State) n => s.wr (ra 0x008 (0x040 + 4 * n) + twin) (s.rd (ra 0x008 (0x040 + 4 * n)))) { live with lanes := live.lanes.set 7 {} }
    let s := (s.fset pwrP paceFloor 100).setFlag pwrP vcoreConf true
    let s := { s with pwr := { s.pwr with cLane := (List.range 8).map (fun n => (n, 486000000)), cRep := 486000000 } }
    let s := ((s.wr (ra 0x008 0x05C) 0x0FE).wr (ra 0x008 0x05C + twin) 0x4FE).fset 0x008 pgPark 2
    let s := ((s.fset 0x037 pgPark 2).wr (ra 0x000 0x060) 0x8008).wr (ra 0x000 0x064) 0x8037
    ends .pressGo s (fun t => raised 1 5 t && raised 36 7 t) = true := by decide +kernel

/-- The header of the request of the watermark example: SEQ 0x17, and 332 symbols (R277, R278). -/
theorem test_watermark_example :
    let f : WmkFrame := { cls := 1, typ := 1, seq := 0x17, payload := [0x00, 0x11, 0x80, 0x80] }
    wmkHeader 2 f = 0x10317400 ∧ (wmkSymbols 2 f).length = 332 := by decide +kernel

/-- CAP2 triggers in state 3: event 492 with DETAIL 3 (chapter 17). -/
theorem test_capture_example :
    ends (.capForce 2) ((live.fset (capP 2) capStat 1).fset (capP 2) capState 3) (fun t => raised 492 3 t) = true := by decide +kernel

/-- FTW of NCO1 at 10 kHz, and HK_SEQ_03 of the lock-in example: its fields as the converter takes them (chapter 10). -/
theorem test_lock_in_example :
    let s := live.wr (ra 0x060 0x04C) 0x7F60082A
    10000 * 2 ^ 32 / 20480000 = 0x200000
    ∧ (hkJob s 0 (.entry 3)).map (fun x => (x.1.input, x.1.gain, x.1.phase, x.2)) = some (0x2A, 0, 0x7F, 2, 6, 0) := by decide +kernel

/-- Step 13 of the adaptation sheet as the spec encodes it, 0x0E01_0000_0000_0018: ACC1 = 2^46 becomes 2^46 + 1,572,864,000 (chapter 7, worked example). -/
theorem test_msu_example :
    let s := (engMemWrite 2 true 0x1002 0x100000 (engine 2 0xC4D 0x0E01000000000018 [])).setEng 2 (fun g =>
      { g with acc1 := 2 ^ 46, t := g.t.set (0 : Fin 8) (-1500), ag := g.ag.set (4 : Fin 8) { ptr := 0x1002 } });
    ends (.stepMsu 2) s (fun t => t.eng[(2 : Eng)].acc1 == 2 ^ 46 + 1572864000) = true := by decide +kernel

/-- Step 22 of that sheet, 0x6480_000C_4B00_0000: a branch to step 11 while Z = 0. -/
theorem test_brc_example :
    ends (.stepBrc 2) (engine 2 0xC56 0x6480000C4B000000 []) (fun t => t.eng[(2 : Eng)].pc == 0xC4B) = true
    ∧ ends (.stepBrc 2) ((engine 2 0xC56 0x6480000C4B000000 []).setEng 2 (fun g => { g with flg := 1 })) (fun t => t.eng[(2 : Eng)].pc != 0xC4B) = true := by
  decide +kernel

/-- The thermistor of the example after R349: TS_2 at 1,481,287 is 70.00 °C, and the band rises from MILD to WARM with event 48, DETAIL 0x0A, and a floor of 10 %. -/
theorem test_thermistor_example :
    let s := { ((live.wr (ra thmP 0x088) 0x6B).wr (ra thmP 0x0A8) 0x0D6B03E8).fset thmP thmBand 1 with banded := true };
    let t := thmPublish 10 1481287 1 1 0x52 s;
    t.fget thmP (tempF 8) = 0x460 ∧ raised 48 0x0A t = true ∧ t.fget pwrP paceFloor = 100 := by decide +kernel

/-- An open thermistor on TS_3 in the shutdown role raises event 50 with DETAIL 0x09 and event 51 with DETAIL 0x39 (chapter 14). -/
theorem test_open_thermistor_example :
    let t := thmPublish 10 7784628 1 1 0x53 (live.wr (ra thmP 0x08C) 0x12B);
    raised 50 0x09 t = true ∧ raised 51 0x39 t = true := by decide +kernel


end Sys2Proof.Tests
end

section
/-! SUPPORT. The CRC-8 of R44 as polynomial division. -/

namespace Sys2Proof.Proofs

open Sys2Proof.Machine

/-! One bit of the division -/

/-- One step of the division by x^8 + x^2 + x + 1: a bit of the message enters the remainder (R44). -/
def crcBit (c : BitVec 8) (b : Bool) : BitVec 8 := if xor c.msb b then (c <<< 1) ^^^ 0x07 else c <<< 1

/-- The remainder after the first `k` bits of a message. -/
def crcBits (f : Nat → Bool) (k : Nat) : BitVec 8 := (List.range k).foldl (fun c i => crcBit c (f i)) 0

/-- One step of the model's register, `a` being below 256. -/
def crcShift (a : Nat) : Nat := if a.testBit 7 then ((a * 2) % 256) ^^^ 0x07 else (a * 2) % 256

theorem crcBits_succ (f : Nat → Bool) (k : Nat) : crcBits f (k + 1) = crcBit (crcBits f k) (f k) := by
  simp [crcBits, List.range_succ]

/-- The model's step is that of the division where a 0 enters. -/
theorem crcShift_toNat (c : BitVec 8) : crcShift c.toNat = (crcBit c false).toNat := by
  have hs : (c <<< 1).toNat = c.toNat * 2 % 256 := by
    rw [BitVec.toNat_shiftLeft, Nat.shiftLeft_eq]
  have hm : c.toNat.testBit 7 = c.msb := by rw [BitVec.msb_eq_getLsbD_last]; rfl
  unfold crcShift crcBit
  rw [hm, Bool.xor_false, ← hs]
  split <;> rfl

/-- A bit may enter at the top of the remainder instead: what follows it in its byte waits in the bits below. -/
theorem crcBit_xor_shiftLeft (c b : BitVec 8) (k : Nat) (hk : k < 8) :
    crcBit (c ^^^ (b <<< k)) false = crcBit c (b.getLsbD (7 - k)) ^^^ (b <<< (k + 1)) := by
  have hm : (b <<< k).msb = b.getLsbD (7 - k) := by
    rw [BitVec.msb_eq_getLsbD_last, BitVec.getLsbD_shiftLeft]
    simp; omega
  unfold crcBit
  rw [BitVec.msb_xor, hm, Bool.xor_false, BitVec.shiftLeft_xor_distrib, ← BitVec.shiftLeft_add]
  split
  · ac_rfl
  · rfl

/-! Bytes -/

theorem crc8Byte_eq_iterate (c b : Nat) : crc8Byte c b = crcShift^[8] (c ^^^ b) := rfl

/-- The steps of one byte: `k` bits of it have entered the division, the rest waits at the top of the model's register. -/
theorem crcShift_iterate (f : Nat → Bool) (m : Nat) (b : BitVec 8) (hf : ∀ i < 8, f (m + i) = b.getLsbD (7 - i)) (k : Nat) (hk : k ≤ 8) :
    crcShift^[k] ((crcBits f m).toNat ^^^ b.toNat) = (crcBits f (m + k) ^^^ (b <<< k)).toNat := by
  induction k with
  | zero => simp
  | succ k ih =>
    rw [Function.iterate_succ_apply', ih (by omega), crcShift_toNat, crcBit_xor_shiftLeft _ _ k (by omega), ← hf k (by omega),
      ← Nat.add_assoc, crcBits_succ]

/-- A byte of the model's CRC is eight steps of the division. -/
theorem crc8Byte_crcBits (f : Nat → Bool) (m : Nat) (b : BitVec 8) (hf : ∀ i < 8, f (m + i) = b.getLsbD (7 - i)) :
    crc8Byte (crcBits f m).toNat b.toNat = (crcBits f (m + 8)).toNat := by
  have h0 : b <<< 8 = 0#8 := BitVec.shiftLeft_eq_zero (le_refl 8)
  rw [crc8Byte_eq_iterate, crcShift_iterate f m b hf 8 (le_refl 8), h0, BitVec.xor_zero]

/-- The CRC-8 of bytes, first to last, is the remainder of their bits, most significant first (R44). -/
theorem crc8_eq_crcBits (l : List (BitVec 8)) (f : Nat → Bool)
    (hf : ∀ (j : Nat) (hj : j < l.length), ∀ i < 8, f (8 * j + i) = l[j].getLsbD (7 - i)) :
    crc8 (l.map BitVec.toNat) = (crcBits f (8 * l.length)).toNat := by
  induction l using List.reverseRecOn with
  | nil => rfl
  | append_singleton l b ih =>
    have hl : crc8 (l.map BitVec.toNat) = (crcBits f (8 * l.length)).toNat := ih fun j hj i hi => by
      rw [hf j (by simp; omega) i hi, List.getElem_append_left hj]
    have hb : ∀ i < 8, f (8 * l.length + i) = b.getLsbD (7 - i) := fun i hi => by
      rw [hf l.length (by simp) i hi, List.getElem_concat_length rfl]
    calc crc8 ((l ++ [b]).map BitVec.toNat)
        = crc8Byte (crc8 (l.map BitVec.toNat)) b.toNat := by simp [crc8]
      _ = (crcBits f (8 * l.length + 8)).toNat := by rw [hl, crc8Byte_crcBits f _ b hb]
      _ = (crcBits f (8 * (l ++ [b]).length)).toNat := by simp [Nat.mul_add]

/-! Headers -/

/-- The three bytes of header bits [31:8], first to last. -/
def headerBytes (w : BitVec 32) : List (BitVec 8) := [w.extractLsb' 24 8, w.extractLsb' 16 8, w.extractLsb' 8 8]

theorem headerBytes_getElem (w : BitVec 32) : ∀ (j : Nat) (hj : j < (headerBytes w).length), (headerBytes w)[j] = w.extractLsb' (24 - 8 * j) 8
  | 0, _ | 1, _ | 2, _ => rfl

theorem headerBytes_bit (w : BitVec 32) (j : Nat) (hj : j < (headerBytes w).length) (i : Nat) (hi : i < 8) :
    w.getLsbD (31 - (8 * j + i)) = (headerBytes w)[j].getLsbD (7 - i) := by
  rw [headerBytes_getElem w j hj, BitVec.getLsbD_extractLsb']
  have h3 : j < 3 := hj
  have hk : 24 - 8 * j + (7 - i) = 31 - (8 * j + i) := by omega
  simp [hk]; omega

theorem headerBytes_toNat (w : BitVec 32) :
    (headerBytes w).map BitVec.toNat = [w.toNat / 2 ^ 24, w.toNat / 2 ^ 16 % 256, w.toNat / 2 ^ 8 % 256] := by
  have h := w.isLt
  simp only [headerBytes, List.map_cons, List.map_nil, BitVec.extractLsb'_toNat, Nat.shiftRight_eq_div_pow]
  rw [Nat.mod_eq_of_lt (a := w.toNat / 2 ^ 24) (by omega)]

/-- The CRC of the bytes of a header word is the remainder of its bits [31:8] (R44). -/
theorem crc8_header (w : BitVec 32) :
    crc8 [w.toNat / 2 ^ 24, w.toNat / 2 ^ 16 % 256, w.toNat / 2 ^ 8 % 256] = (crcBits (fun i => w.getLsbD (31 - i)) 24).toNat := by
  rw [← headerBytes_toNat]
  exact crc8_eq_crcBits (headerBytes w) _ (headerBytes_bit w)

/-- The bytes that a header's CRC is computed over. -/
theorem headerCrc_word (w : Nat) (hw : w < 2 ^ 32) : headerCrc (w / 256) = crc8 [w / 2 ^ 24, w / 2 ^ 16 % 256, w / 2 ^ 8 % 256] := by
  unfold headerCrc
  rw [Nat.div_div_eq_div_mul, Nat.div_div_eq_div_mul, show w / (256 * 65536) % 256 = w / 2 ^ 24 by omega]
  rfl

/-- A received header passes its CRC where its last byte is the remainder of the bits before it (R44, R46). -/
theorem headerOk_eq_decide (w : BitVec 32) :
    headerOk w.toNat = decide (w.setWidth 8 = crcBits (fun i => w.getLsbD (31 - i)) 24) := by
  rw [headerOk, headerCrc_word _ w.isLt, crc8_header, beq_eq_decide]
  simp only [← BitVec.toNat_inj, BitVec.toNat_setWidth, Nat.reducePow]

/-- The PEC of a header's three bytes is its CRC (R44). -/
theorem pecOf_header (w : BitVec 32) :
    pecOf [w.toNat / 2 ^ 24, w.toNat / 2 ^ 16 % 256, w.toNat / 2 ^ 8 % 256] = crcBits (fun i => w.getLsbD (31 - i)) 24 := by
  unfold pecOf
  rw [crc8_header, BitVec.ofNat_toNat, BitVec.setWidth_eq]

theorem crcShift_lt (a : Nat) : crcShift a < 256 := by
  unfold crcShift
  have h : a * 2 % 256 < 2 ^ 8 := Nat.mod_lt _ (by decide)
  split
  · exact Nat.xor_lt_two_pow h (by decide)
  · exact h

theorem headerCrc_lt (u : Nat) : headerCrc u < 256 := by
  show crc8Byte (crc8Byte (crc8Byte 0 (u / 65536 % 256)) (u / 256 % 256)) (u % 256) < 256
  rw [crc8Byte_eq_iterate, Function.iterate_succ_apply']
  exact crcShift_lt _

/-- A header as it is sent passes its CRC. -/
theorem headerOk_word (h : Header) : headerOk h.word = true := by
  have hc := headerCrc_lt h.upper
  have hd : h.word / 256 = h.upper := by unfold Header.word; omega
  have hm : h.word % 256 = headerCrc h.upper := by unfold Header.word; omega
  rw [headerOk, hd, hm, beq_self_eq_true]

end Sys2Proof.Proofs
end

section
/-! SUPPORT. What the steps of TX_FRAME leave alone: the coding mode of a lane up to its frame, every lane after it. -/

namespace Sys2Proof.Proofs

open Sys2Proof.Machine Sys2Proof.Laws

/-- What every turn of a loop keeps, the loop keeps. -/
theorem each_keeps {α β : Type} (g : State → β) (l : List α) (f : α → State → State) (h : ∀ a ∈ l, ∀ s, g (f a s) = g s) (s : State) :
    g (each l f s) = g s := by
  unfold each
  induction l generalizing s with
  | nil => rfl
  | cons a r ih => exact (ih (fun b hb => h b (List.mem_cons_of_mem _ hb)) _).trans (h a (List.mem_cons_self ..) s)

theorem ite_coding (c : Prop) [Decidable c] (s t : State) (n : Lane) : (if c then s else t).coding n = if c then s.coding n else t.coding n :=
  apply_ite (fun s : State => s.coding n) c s t

theorem ite_lanes (c : Prop) [Decidable c] (s t : State) : (if c then s else t).lanes = if c then s.lanes else t.lanes := apply_ite State.lanes c s t

/-! The coding mode -/

theorem sideReg_lfmMode (n : Lane) : sideReg (ra (lfmP n) lfmCoding.off) = false := by
  revert n; decide

theorem oe_coding {E : List Nat} {s t : State} (h : OnlyEvents E s t) (n : Lane) : t.coding n = s.coding n := oe_fget h _ _ (sideReg_lfmMode n)

@[simp] theorem addCtr_cLane_coding (n m : Lane) (off k : Nat) (s : State) (ho : off < 0x1000) : (addCtr (cLane m off) k s).coding n = s.coding n :=
  oe_coding (oe_addCtr _ _ s (by unfold cLane; omega)) n

@[simp] theorem addCtr_cHost_coding (n : Lane) (h : Host16) (off k : Nat) (s : State) (ho : off < 0x100) : (addCtr (cHost h off) k s).coding n = s.coding n :=
  oe_coding (oe_addCtr _ _ s (by unfold cHost; omega)) n

@[simp] theorem lostBits_coding (n m : Lane) (k : Nat) (s : State) : (lostBits m k s).coding n = s.coding n :=
  addCtr_cLane_coding n m 10 k s (by decide)

@[simp] theorem raise_coding (n : Lane) (e d : Nat) (s : State) : (raise e d s).coding n = s.coding n := oe_coding (oe_raise e d s) n

@[simp] theorem setLane_coding (n m : Lane) (f : LaneSt → LaneSt) (s : State) : (s.setLane m f).coding n = s.coding n := rfl

@[simp] theorem setHost_coding (n : Lane) (h : Host16) (f : HostSt → HostSt) (s : State) : (s.setHost h f).coding n = s.coding n := rfl

/-- A register of a host receiver's page is no register of a framer's. -/
theorem fset_hrx_coding (n : Lane) (h : Host16) (f : Fld) (x : Nat) (s : State) : (s.fset (hrxP h) f x).coding n = s.coding n := by
  have hne : ra (lfmP n) lfmCoding.off ≠ ra (hrxP h) f.off := by
    have := n.isLt
    simp only [ra, lfmP, hrxP, lfmCoding]; omega
  simp only [State.coding, State.fget, fset_rd_other s _ f x hne]

@[simp] theorem skewShow_coding (n m : Lane) (s : State) : (skewShow m s).coding n = s.coding n := by
  unfold skewShow
  dsimp only
  split
  · exact fset_hrx_coding n _ _ _ s
  · rfl

@[simp] theorem fireFrame_coding (n : Lane) (m : Nat) (s : State) : (fireFrame m s).coding n = s.coding n :=
  each_keeps (fun s => s.coding n) _ _ (fun b hb t => oe_coding (oe_fireWith adds_addCtr b (boundWith_lt _ _ _ b hb) t) n) _

@[simp] theorem deskewRecentre_coding (n m : Lane) (s : State) : (deskewRecentre m s).coding n = s.coding n := by
  unfold deskewRecentre
  dsimp only
  split
  · rfl
  · simp

@[simp] theorem deskew_coding (n m : Lane) (k : Nat) (b : List Bool) (s : State) : (deskew m k b s).2.coding n = s.coding n := by
  unfold deskew
  dsimp only
  split <;> simp

@[simp] theorem capFeed_coding (n : Lane) (kinds : List Nat) (inst : Nat) (make : Nat → List CapSample) (s : State) :
    (capFeed kinds inst make s).coding n = s.coding n :=
  each_keeps (fun s => s.coding n) _ _ (fun k _ t => by dsimp only; split <;> rfl) s

@[simp] theorem hrxRun_coding (n : Lane) (h : Host16) (x : List Int) (s : State) : (hrxRun h x s).2.coding n = s.coding n := by
  unfold hrxRun
  simp

@[simp] theorem hostArrive_coding (n m : Lane) (a b : List Int) (s : State) : (hostArrive m a b s).2.coding n = s.coding n := by
  unfold hostArrive
  dsimp only
  split <;> simp

@[simp] theorem justExcursion_coding (n m : Lane) (above : Bool) (s : State) : (justExcursion m above s).coding n = s.coding n := by
  unfold justExcursion
  split <;> simp

@[simp] theorem justPush_coding (n m : Lane) (a b : List Bool) (s : State) : (justPush m a b s).coding n = s.coding n := by
  unfold justPush
  dsimp only
  split <;> simp

@[simp] theorem justRecentre_coding (n m : Lane) (a b : List Bool) (s : State) : (justRecentre m a b s).coding n = s.coding n := by
  simp [justRecentre]

@[simp] theorem takeFrame_coding (n m : Lane) (a b : List Bool) (s : State) : (takeFrame m a b s).st.coding n = s.coding n := by
  unfold takeFrame
  dsimp only
  split
  · rfl
  · simp [ite_coding]

/-! The lanes -/

@[simp] theorem addCtr_cLane_lanes (m : Lane) (off k : Nat) (s : State) (ho : off < 0x1000) : (addCtr (cLane m off) k s).lanes = s.lanes :=
  oe_lanes (oe_addCtr _ _ s (by unfold cLane; omega))

@[simp] theorem addCtr_cHost_lanes (h : Host16) (off k : Nat) (s : State) (ho : off < 0x100) : (addCtr (cHost h off) k s).lanes = s.lanes :=
  oe_lanes (oe_addCtr _ _ s (by unfold cHost; omega))

@[simp] theorem raise_lanes (e d : Nat) (s : State) : (raise e d s).lanes = s.lanes := oe_lanes (oe_raise e d s)

@[simp] theorem setFlag_lanes (p : Nat) (f : Fld) (b : Bool) (s : State) : (s.setFlag p f b).lanes = s.lanes := rfl

@[simp] theorem putBytes_lanes (bs : List Byte) (a : Nat) (e : BitVec 5) (s : State) : (s.putBytes a bs e).lanes = s.lanes := by
  induction bs generalizing s a with
  | nil => rfl
  | cons b r ih => exact ih (a + 1) (s.putByte a b e)

@[simp] theorem store_lanes (a : Nat) (bs : List Byte) (e : BitVec 5) (s : State) : (store a bs e s).lanes = s.lanes := by
  unfold store
  dsimp only
  rw [oe_lanes (oe_flipSpent _ _), putBytes_lanes]

@[simp] theorem memWrite_lanes (a : Nat) (bs : List Byte) (s : State) : (memWrite a bs s).lanes = s.lanes := by
  unfold memWrite
  dsimp only
  rw [each_keeps State.lanes, store_lanes]
  intro w _ t
  rw [oe_lanes (oe_clearLive _ w _)]

@[simp] theorem poison_lanes (m w : Nat) (s : State) : (poison m w s).lanes = s.lanes := store_lanes _ _ _ s

@[simp] theorem reloadSheet_lanes (sheet : Nat) (s : State) : (reloadSheet sheet s).lanes = s.lanes := by
  unfold reloadSheet
  dsimp only
  rw [fset_lanes, ite_lanes]
  dsimp only
  rw [ite_self]
  exact each_keeps State.lanes _ _ (fun e _ t => setEng_lanes t e _) s

/-- The recovery of a word, whatever block it lies in. -/
theorem recover_lanes {add : Nat → Nat → State → State} (ha : Adds add) (m w occ : Nat) (s : State) : (recover add m w occ s).lanes = s.lanes := by
  unfold recover
  split
  · dsimp only
    split
    · rw [oe_lanes (oe_raiseWith ha _ _ _ _)]
    · rfl
  · dsimp only
    split
    · rw [memWrite_lanes]
    · exact each_keeps State.lanes _ _ (fun x _ t => reloadSheet_lanes x t) s
  · rfl
  · rfl
  · split <;> rfl
  · rfl

theorem ueFound_lanes {add : Nat → Nat → State → State} (ha : Adds add) (src : Reader) (m w : Nat) (s : State) :
    (ueFound add src m w s).lanes = s.lanes := by
  have hr := regionOf_lt m
  unfold ueFound
  dsimp only
  split
  · rw [oe_lanes (ha _ _ _ (by omega)), poison_lanes]
  · rw [oe_lanes (ha _ _ _ (by omega)), recover_lanes ha, oe_lanes (oe_raiseWith ha _ _ _ _), oe_lanes (oe_ueRecord _ _ _ _), poison_lanes]

@[simp] theorem readWord_lanes (src : Reader) (m w : Nat) (s : State) : (readWord src m w s).2.2.lanes = s.lanes := by
  unfold readWord readWith onlyIf
  dsimp only
  split
  · rfl
  · split
    · exact ueFound_lanes adds_addCtr src m w s
    · dsimp only
      split
      · exact (oe_lanes (oe_visitNext _ _ _)).trans (oe_lanes (oe_ceFound adds_addCtr _ _ s))
      · exact oe_lanes (oe_ceFound adds_addCtr _ _ s)

@[simp] theorem ownerMet_lanes (l : List (Nat × Nat)) (s : State) : (ownerMet l s).lanes = s.lanes :=
  each_keeps State.lanes _ _ (fun x _ t => by dsimp only; split <;> simp) s

@[simp] theorem hrxAdvance_lanes (n : Lane) (sent : Bool) (h : Host16) (k : Nat) (s : State) : (hrxAdvance n sent h k s).lanes = s.lanes := by
  unfold hrxAdvance
  dsimp only
  split
  · exact addCtr_cHost_lanes h 3 k _ (by decide)
  · rfl

@[simp] theorem showFill_lanes (n : Lane) (s : State) : (showFill n s).lanes = s.lanes := rfl

/-! The frame -/

/-- A frame that is sent stands on the pins as the framer made it. -/
theorem sendFrame_txLevels (n : Lane) (o : TxOut) (k : Nat) (ahead : List Nat) (s : State) : (sendFrame n o k ahead s).lanes[n].txLevels = o.levels := by
  simp [sendFrame, ite_lanes]

/-- A PROT frame begins with the comma (R40, R42). -/
theorem protFrame_comma (s : State) (n : Lane) (t : HostTake) (recentre : Bool) : (protFrame s n t recentre).levels.take 32 = comma := rfl

/-- A PROT frame that is sent begins with the comma: the lane's coding mode stands until the frame is made, and after its release nothing changes its levels (R42, R45). -/
theorem txFrameOp_comma (n : Lane) (a b : List Int) (ahead : List Nat) (s : State) (hc : s.coding n = 0) :
    (txFrameOp n a b ahead s).lanes[n].txLevels.take 32 = comma := by
  unfold txFrameOp
  extract_lets s1 s2 hs
  have h3 : (hostArrive n a b s2).2.coding n = 0 := by simp [s2, s1, hc]
  generalize hostArrive n a b s2 = p at h3
  obtain ⟨arr, s3⟩ := p
  dsimp -zeta only at h3 ⊢
  extract_lets x y recentre calm t s4 k o s5 s6 s7 late s8 jc s9
  have h4 : s4.coding n = 0 := by
    simp only [s4, t]
    split
    · simp [calm, ite_coding, h3]
    · split
      · simp [calm, h3]
      · simp [h3]
  have ho : o.levels.take 32 = comma := by simp only [o, h4, if_true, protFrame_comma]
  have h6 : s6.lanes[n].txLevels = o.levels := sendFrame_txLevels n o k ahead s5
  have h7 : s7.lanes = s6.lanes := each_keeps State.lanes _ _ (fun q _ u => hrxAdvance_lanes n true q.1 q.2.length u) s6
  have h8 : s8.lanes[n].txLevels = s7.lanes[n].txLevels := by simp [s8]
  have h9 : s9.lanes = s8.lanes := by
    simp only [s9]
    split
    · cases o.jc <;> simp
    · rfl
  rw [showFill_lanes, fset_lanes, h9, h8, h7, h6, ho]

theorem exec_txFrame (n : Lane) (a b : List Int) (ahead : List (Fin 4)) (s : State) : exec (.txFrame n a b ahead) s = execTxFrame n a b ahead s := rfl

/-- TX_FRAME of a lane that runs, is mapped and sends frames. -/
theorem execTxFrame_live (n : Lane) (a b : List Int) (ahead : List (Fin 4)) (s : State) (hl : s.txLive n = true) (hm : mapEn (s.mapOf n) = true) :
    execTxFrame n a b ahead s = .next (txFrameOp n a b (ahead.map (fun x => x.val)) s) := by
  have hr : s.lanes[n].run = true := by
    simp only [State.txLive, Bool.and_eq_true] at hl
    obtain ⟨⟨⟨⟨hr, _⟩, _⟩, _⟩, _⟩ := hl
    exact hr
  rw [execTxFrame, hr, hm, if_neg (by decide), if_pos hl]

/-- TX_FRAME of a PROT lane sends a frame that begins with the comma. -/
theorem makes_txFrame_comma (n : Lane) (a b : List Int) (ahead : List (Fin 4)) (s : State) (hl : s.txLive n = true) (hm : mapEn (s.mapOf n) = true)
    (hc : s.coding n = 0) : Makes (.txFrame n a b ahead) s fun t => t.lanes[n].txLevels.take 32 = comma :=
  ⟨_, (exec_txFrame n a b ahead s).trans (execTxFrame_live n a b ahead s hl hm), txFrameOp_comma n a b _ s hc⟩

end Sys2Proof.Proofs
end

section
/-! SUPPORT. The comma of every PROT frame and the CRC of every header (R42, R44). -/

namespace Sys2Proof.Proofs

open Sys2Proof.Machine

theorem comma_levels :
    comma = [3, 3, 3, 0, 0, 0, 3, 0, 0, 3, 3, 0, 3, 0, 3, 3] ++ [0, 0, 0, 3, 3, 3, 0, 3, 0, 3, 0, 0, 3, 0, 0, 3]
      ∧ (comma.filter (· == 0)).length = 16 ∧ (comma.filter (· == 3)).length = 16 ∧ 2 * comma.sum = 32 * 3 := by
  decide

/-- Settles O11: a frame is the comma and what follows it, and the model's bytewise CRC is the division bit by bit. -/
theorem commaAndHeaderCheck : Obligations.CommaAndHeaderCheck := by
  obtain ⟨hlist, hzeros, hthrees, hmean⟩ := comma_levels
  refine ⟨hlist, hzeros, hthrees, hmean, ?_, ?_, headerOk_word⟩
  · exact fun s n a b ahead hl hm hc => makes_txFrame_comma n a b ahead s hl hm hc
  · exact fun w => ⟨headerOk_eq_decide w, pecOf_header w⟩

end Sys2Proof.Proofs
end

section
/-! SUPPORT. The IMM source of a step (R187) and the post-modify of an address generator (R181, R191). -/

namespace Sys2Proof.Proofs

open Sys2Proof.Machine Sys2Proof.Laws

/-! The IMM source -/

/-- The opcodes that zero-extend IMM, as R187 lists them. -/
theorem zeroExt_iff_mem (o : Op) : zeroExt o = true ↔ o ∈ [Op.and, .or, .xor, .shl, .shr] := by cases o <;> decide

/-- `sx` is the two's complement value of the bit vector. -/
theorem sx_eq_toInt_ofNat (w v : Nat) : sx w v = (BitVec.ofNat w v).toInt := by
  rw [BitVec.toInt_eq_toNat_cond, BitVec.toNat_ofNat]
  dsimp only [sx]
  cases w with
  | zero => simp [Nat.mod_one]
  | succ n =>
    have hhalf : v % 2 ^ (n + 1) < 2 ^ n ↔ 2 * (v % 2 ^ (n + 1)) < 2 ^ (n + 1) := by omega
    simp only [Nat.add_sub_cancel, hhalf]

theorem readSrc_imm_st (e : Eng) (o : Op) (f : StepWord) (s : State) : (readSrc e o f .imm s).st = s := rfl

theorem readSrc_imm_val (e : Eng) (o : Op) (f : StepWord) (s : State) :
    (readSrc e o f .imm s).val = if o ∈ [Op.and, .or, .xor, .shl, .shr] then (f.imm : Int) else (BitVec.ofNat 16 f.imm).toInt := by
  simp only [← zeroExt_iff_mem, ← sx_eq_toInt_ofNat]
  rfl

/-! One post-modify -/

/-- The post-modify codes (R181). -/
theorem postDelta_eq_nth (code : Nat) (md : BitVec 13) (h : code < 4) : postDelta code md = nth 0 [0, 1, -1, md.toInt] code := by
  match code, h with
  | 0, _ | 1, _ | 2, _ | 3, _ => rfl

/-- `agMove` with its offset as a difference of bit vectors (R191). -/
theorem agMove_eq (ptr base len : BitVec 13) (delta : Int) :
    agMove ptr base len delta =
      let offset := (ptr - base).toNat
      let length := if len = 0 then 8192 else len.toNat
      BitVec.ofInt 13 (if offset < length then (base.toNat : Int) + Int.emod ((offset : Int) + delta) (length : Int) else (ptr.toNat : Int) + delta) := by
  have hoff : (ptr.toNat + 8192 - base.toNat) % 8192 = (ptr - base).toNat := by
    rw [BitVec.toNat_sub]
    have := base.isLt
    omega
  unfold agMove
  rw [hoff]
  exact (apply_ite (BitVec.ofInt 13) _ _ _).symm

theorem setAg_ag_same (e : Eng) (i : Fin 8) (f : AddrGen → AddrGen) (s : State) : (setAg e i f s).eng[e].ag[i] = f s.eng[e].ag[i] := by
  simp [setAg]

theorem setAg_ag_other (e : Eng) (i : Nat) (j : Fin 8) (f : AddrGen → AddrGen) (s : State) (hj : j ≠ Fin.ofNat 8 i) :
    (setAg e i f s).eng[e].ag[j] = s.eng[e].ag[j] := by
  have hv : i % 8 ≠ j.val := fun h => hj (Fin.ext h.symm)
  simp [setAg, hv]

theorem postMod_none (e : Eng) (i code : Nat) (s : State) :
    postMod e i code none s = setAg e i (fun a => { a with ptr := agMove a.ptr a.base a.len (postDelta code a.md) }) s := rfl

/-- What a post-modify does to its generator. -/
theorem postMod_none_ag_same (e : Eng) (i : Fin 8) (code : Nat) (s : State) :
    let g := s.eng[e].ag[i]
    (postMod e i code none s).eng[e].ag[i] = { g with ptr := agMove g.ptr g.base g.len (postDelta code g.md) } := by
  rw [postMod_none, setAg_ag_same]

theorem postMod_none_ag_other (e : Eng) (i : Nat) (j : Fin 8) (code : Nat) (s : State) (hj : j ≠ Fin.ofNat 8 i) :
    (postMod e i code none s).eng[e].ag[j] = s.eng[e].ag[j] := by
  rw [postMod_none, setAg_ag_other e i j _ s hj]

/-- A post-modify of one generator depends on that generator alone. -/
theorem postMod_none_ag_congr (e : Eng) (i : Fin 8) (code : Nat) {s t : State} (h : s.eng[e].ag[i] = t.eng[e].ag[i]) :
    (postMod e i code none s).eng[e].ag[i] = (postMod e i code none t).eng[e].ag[i] := by
  rw [postMod_none_ag_same, postMod_none_ag_same, h]

/-! Both post-modifies of a step -/

/-- The X generator of a step is one of 0 to 3, its Y generator one of 4 to 7 (R180). -/
theorem xGen_ne_yGen (f : StepWord) : Fin.ofNat 8 f.xGen ≠ Fin.ofNat 8 f.yGen := by
  have hx : bits f.xag 2 2 < 4 := Nat.mod_lt _ (by decide)
  have hy : bits f.yag 2 2 < 4 := Nat.mod_lt _ (by decide)
  intro h
  have hv : bits f.xag 2 2 % 8 = (4 + bits f.yag 2 2) % 8 := congrArg Fin.val h
  omega

theorem oe_eng {E : List Nat} {s t : State} (h : OnlyEvents E s t) : t.eng = s.eng := by rw [h.rest]

@[simp] theorem addCtr_cEng_eng (e : Eng) (k : Nat) (s : State) : (addCtr (cEng e 1) k s).eng = s.eng :=
  oe_eng (oe_addCtr (cEng e 1) k s (by unfold cEng; omega))

/-- The end of a step leaves the generators as the two post-modifies leave them. -/
theorem endStep_ag (e : Eng) (f : StepWord) (d : Option Dst) (s : State) :
    (endStep e f d s).eng[e].ag = (postMod e f.yGen (f.yag % 4) d (postMod e f.xGen (f.xag % 4) d s)).eng[e].ag := by
  simp [endStep]

theorem endStep_ag_xGen (e : Eng) (f : StepWord) (i : Fin 8) (s : State) (hi : f.xGen = i.val) :
    (endStep e f none s).eng[e].ag[i] = (postMod e i (f.xag % 4) none s).eng[e].ag[i] := by
  have hne : i ≠ Fin.ofNat 8 f.yGen := by simpa [hi] using xGen_ne_yGen f
  rw [endStep_ag, postMod_none_ag_other e f.yGen i _ _ hne, hi]

theorem endStep_ag_yGen (e : Eng) (f : StepWord) (i : Fin 8) (s : State) (hi : f.yGen = i.val) :
    (endStep e f none s).eng[e].ag[i] = (postMod e i (f.yag % 4) none s).eng[e].ag[i] := by
  have hne : i ≠ Fin.ofNat 8 f.xGen := by simpa [hi] using (xGen_ne_yGen f).symm
  rw [endStep_ag, hi]
  exact postMod_none_ag_congr e i _ (postMod_none_ag_other e f.xGen i _ s hne)

/-- Settles O41: IMM by the opcode's extension, one post-modify by `agMove`, and the two of a step act on generators of their own. -/
theorem operandRules : Obligations.OperandRules := by
  intro s e
  refine ⟨fun o f _ => ⟨readSrc_imm_st e o f s, readSrc_imm_val e o f s, fun himm => ?_⟩, fun i code hcode => ?_, fun f i => ?_⟩
  · rw [readSrc_imm_val, readSrc_imm_val, himm]
    decide
  · dsimp only
    refine ⟨?_, ?_, ?_, ?_, fun j hj => postMod_none_ag_other e i j code s (by simpa using hj)⟩
    · rw [postMod_none_ag_same, agMove_eq, postDelta_eq_nth code _ hcode]
    all_goals rw [postMod_none_ag_same]
  · exact ⟨endStep_ag_xGen e f i s, endStep_ag_yGen e f i s⟩

end Sys2Proof.Proofs
end

section
/-! SUPPORT. The check bits of a byte and the decision of the checker (R299, R300). -/

namespace Sys2Proof.Proofs

open Sys2Proof.Machine

/-! Parities -/

theorem foldl_xor_cons (b : Bool) (l : List Bool) : (b :: l).foldl xor false = xor b (l.foldl xor false) := by
  rw [← List.foldl_assoc (op := xor), List.foldl_cons, Bool.xor_comm]

theorem foldl_xor_append (l m : List Bool) : (l ++ m).foldl xor false = xor (l.foldl xor false) (m.foldl xor false) := by
  rw [← List.foldl_assoc (op := xor), List.foldl_append, Bool.xor_false]

/-- The model counts the ones among some bits where the spec XORs the bits. -/
theorem oddOnes_eq_foldl_xor (f : Nat → Bool) (l : List Nat) : ((l.filter f).length % 2 == 1) = (l.map f).foldl xor false := by
  induction l with
  | nil => rfl
  | cons i l ih =>
    rw [List.map_cons, foldl_xor_cons, ← ih]
    cases hi : f i with
    | false => rw [List.filter_cons_of_neg (by simp [hi]), Bool.false_xor]
    | true =>
      rw [List.filter_cons_of_pos hi, List.length_cons, Bool.true_xor, Bool.eq_iff_iff]
      simp only [beq_iff_eq, Bool.not_eq_true', beq_eq_false_iff_ne]
      omega

/-- The XOR of the bits of a word at some positions. -/
def parityAt {w : Nat} (v : BitVec w) (l : List Nat) : Bool := (l.map v.getLsbD).foldl xor false

theorem oddOnes_eq_parityAt {w : Nat} (v : BitVec w) (l : List Nat) : ((l.filter fun i => v.toNat.testBit i).length % 2 == 1) = parityAt v l :=
  oddOnes_eq_foldl_xor _ l

@[simp] theorem parityAt_nil {w : Nat} (v : BitVec w) : parityAt v [] = false := rfl

@[simp] theorem parityAt_cons {w : Nat} (v : BitVec w) (i : Nat) (l : List Nat) : parityAt v (i :: l) = xor (v.getLsbD i) (parityAt v l) :=
  foldl_xor_cons _ _

theorem parityAt_singleton {w : Nat} (v : BitVec w) (i : Nat) : parityAt v [i] = v.getLsbD i := Bool.false_xor _

theorem parityAt_append {w : Nat} (v : BitVec w) (l m : List Nat) : parityAt v (l ++ m) = xor (parityAt v l) (parityAt v m) := by
  rw [parityAt, List.map_append, foldl_xor_append, parityAt, parityAt]

theorem parityAt_xor {w : Nat} (v u : BitVec w) (l : List Nat) : parityAt (v ^^^ u) l = xor (parityAt v l) (parityAt u l) := by
  induction l with
  | nil => rfl
  | cons i l ih => simp only [parityAt_cons, ih, BitVec.getLsbD_xor, Bool.xor_assoc, Bool.xor_left_comm]

/-! The check bits (R299) -/

/-- The check bits that belong to a byte, as the memory stores them. -/
def checkWord (d : Byte) : BitVec 5 := BitVec.ofNat 5 (checkBits d.toNat)

/-- Five bits packed into a word stand at the word's positions 0 to 4. -/
theorem getLsbD_of_eq_fiveBits {c : BitVec 5} {c₀ c₁ c₂ c₃ c₄ : Bool}
    (h : c = BitVec.ofNat 5 (bit c₀ + 2 * bit c₁ + 4 * bit c₂ + 8 * bit c₃ + 16 * bit c₄)) :
    c.getLsbD 0 = c₀ ∧ c.getLsbD 1 = c₁ ∧ c.getLsbD 2 = c₂ ∧ c.getLsbD 3 = c₃ ∧ c.getLsbD 4 = c₄ := by
  subst h
  revert c₀ c₁ c₂ c₃ c₄
  decide

theorem checkWord_eq_fiveBits (d : Byte) :
    let c₀ := parityAt d [0, 1, 3, 4, 6]
    let c₁ := parityAt d [0, 2, 3, 5, 6]
    let c₂ := parityAt d [1, 2, 3, 7]
    let c₃ := parityAt d [4, 5, 6, 7]
    let c₄ := xor (parityAt d [0, 1, 2, 3, 4, 5, 6, 7]) (xor (xor c₀ c₁) (xor c₂ c₃))
    checkWord d = BitVec.ofNat 5 (bit c₀ + 2 * bit c₁ + 4 * bit c₂ + 8 * bit c₃ + 16 * bit c₄) := by
  simp only [checkWord, checkBits, oddOnes_eq_parityAt]

/-- The equations of R299, each as the parity of the bits that it names. -/
theorem checkWord_getLsbD (d : Byte) :
    let c := checkWord d
    c.getLsbD 0 = parityAt d [0, 1, 3, 4, 6] ∧ c.getLsbD 1 = parityAt d [0, 2, 3, 5, 6] ∧ c.getLsbD 2 = parityAt d [1, 2, 3, 7]
      ∧ c.getLsbD 3 = parityAt d [4, 5, 6, 7] ∧ c.getLsbD 4 = xor (parityAt d [0, 1, 2, 3, 4, 5, 6, 7]) (parityAt c [0, 1, 2, 3]) := by
  obtain ⟨h0, h1, h2, h3, h4⟩ := getLsbD_of_eq_fiveBits (checkWord_eq_fiveBits d)
  refine ⟨h0, h1, h2, h3, ?_⟩
  rw [h4, ← h0, ← h1, ← h2, ← h3]
  simp only [parityAt_cons, parityAt_nil, Bool.xor_false, Bool.xor_assoc]

/-- With its check bits a byte has an even number of ones. -/
theorem parityAt_checkWord (d : Byte) : parityAt (checkWord d) (List.range 5) = parityAt d (List.range 8) := by
  obtain ⟨-, -, -, -, h4⟩ := checkWord_getLsbD d
  calc parityAt (checkWord d) ([0, 1, 2, 3] ++ [4])
      = xor (parityAt (checkWord d) [0, 1, 2, 3]) ((checkWord d).getLsbD 4) := by rw [parityAt_append, parityAt_singleton]
    _ = parityAt d (List.range 8) := by rw [h4, Bool.xor_left_comm, Bool.xor_self, Bool.xor_false]; rfl

/-! The decision of the checker (R300) -/

theorem eccOf_eq (e : BitVec 5) :
    eccOf e = if e.toNat % 16 = 0 ∧ parityAt e (List.range 5) = false then .ok
      else if parityAt e (List.range 5) = true ∧ e.toNat % 16 ≤ 12 then .ce else .ue := by
  simp only [eccOf, oddOnes_eq_parityAt]

theorem eccOf_ok {e : BitVec 5} (hy : e.toNat % 16 = 0) (hp : parityAt e (List.range 5) = false) : eccOf e = .ok := by
  rw [eccOf_eq, if_pos ⟨hy, hp⟩]

theorem eccOf_ce {e : BitVec 5} (hy : e.toNat % 16 ≤ 12) (hp : parityAt e (List.range 5) = true) : eccOf e = .ce := by
  simp [eccOf_eq, hy, hp]

theorem eccOf_ue_of_even {e : BitVec 5} (hy : e.toNat % 16 ≠ 0) (hp : parityAt e (List.range 5) = false) : eccOf e = .ue := by
  simp [eccOf_eq, hy, hp]

theorem eccOf_ue_of_odd {e : BitVec 5} (hy : 13 ≤ e.toNat % 16) (hp : parityAt e (List.range 5) = true) : eccOf e = .ue := by
  simp [eccOf_eq, hp, Nat.not_le.mpr hy]

theorem corrected_of_ne_ce {d : Byte} {e : BitVec 5} (h : eccOf e ≠ .ce) : corrected d e = d := if_neg h

theorem corrected_of_ce {d : Byte} {e : BitVec 5} (h : eccOf e = .ce) :
    corrected d e = match dataBitAt (e.toNat % 16) with | some i => d ^^^ BitVec.ofNat 8 (2 ^ i) | none => d := if_pos h

/-- The syndrome is the error of the stored check bits. -/
theorem stored_xor_checkWord (d : Byte) (e : BitVec 5) : checkWord d ^^^ e ^^^ checkWord d = e := by
  rw [BitVec.xor_comm, ← BitVec.xor_assoc, BitVec.xor_self, BitVec.zero_xor]

/-- The parity of the thirteen bits as read is that of the error of the stored check bits. -/
theorem parity_stored (d : Byte) (e : BitVec 5) :
    ((List.range 8).map d.getLsbD ++ (List.range 5).map (checkWord d ^^^ e).getLsbD).foldl xor false = parityAt e (List.range 5) := by
  rw [foldl_xor_append]
  change xor (parityAt d _) (parityAt (checkWord d ^^^ e) _) = _
  rw [parityAt_xor, parityAt_checkWord, ← Bool.xor_assoc, Bool.xor_self, Bool.false_xor]

theorem isUe_iff (s : State) (a n : Nat) : s.isUe a n = true ↔ ∃ i, i < n ∧ eccOf (s.chkErr (a + i)) = .ue := by
  simp [State.isUe]

/-- Settles O35: the check bits make the ones of a byte even, so the parity as read is that of the error of the check bits, from which the model decides. -/
theorem checkBitsAndChecker : Obligations.CheckBitsAndChecker := by
  refine ⟨fun d => ?_, rfl, fun s a => ?_⟩
  · simpa only [checkWord, parityAt_cons, parityAt_nil, Bool.xor_false, Bool.xor_assoc] using checkWord_getLsbD d
  · intro d stored y p e
    have hy : y = (s.chkErr a).toNat % 16 := congrArg (·.toNat % 16) (stored_xor_checkWord d (s.chkErr a))
    have hp : p = parityAt (s.chkErr a) (List.range 5) := parity_stored d (s.chkErr a)
    rw [hy, hp]
    refine ⟨fun h0 hev => ?_, fun h0 hodd => ?_, fun _ h12 hodd => ?_, eccOf_ue_of_odd, eccOf_ue_of_even, isUe_iff s a⟩
    · have he := eccOf_ok h0 hev
      exact ⟨he, corrected_of_ne_ce (by simp [he])⟩
    · have he := eccOf_ce (by omega) hodd
      exact ⟨he, by rw [State.fetch, corrected_of_ce he, h0]; rfl⟩
    · have he := eccOf_ce h12 hodd
      exact ⟨he, corrected_of_ce he⟩

end Sys2Proof.Proofs
end
